-- ==== Sys2Proof/Word.lean ====
section
/-! DEFINITION. The bit-vector types of SPOT-CFC, under the names the spec uses (R6, R7, R8). -/

namespace Sys2Proof

/-- A byte: one register `x[i]` of the command buffer (R8, R21). -/
abbrev Byte := BitVec 8

/-- A nibble: a field of the nibble-packed byte (R81). -/
abbrev Nibble := BitVec 4

/-- A 32-bit value: operand `V`, result `RES0` or `RES1`, or a float pattern (R87, R88, R136). -/
abbrev Word32 := BitVec 32

/-- A frame identifier or a mask, `ID_W` = 12 bits (R7, R80). -/
abbrev Ident := BitVec 12

/-- A frame's DATA field: payload byte `i` at bits `8i+7:8i` (R11, R83). -/
abbrev Payload := BitVec 64

/-- A command word, 80 bits (R86). -/
abbrev CommandWord := BitVec 80

/-- A response word, 152 bits (R88). -/
abbrev ResponseWord := BitVec 152

/-- The 80-bit record of a frame (R83). -/
abbrev FrameRecord := BitVec 80

end Sys2Proof
end

