-- ==== Sys2Proof/Syntax.lean ====
section
/-! DEFINITION. The instructions: one constructor per row of spec/opcode_table.json, the 22 port
operations (R89) and the ten wire commands (R91). -/

namespace Sys2Proof

/-- The ten command ids of the wire catalogue (R91). -/
inductive CmdId where
  | eStop | calibrate | setMotorPosition | setMotorSpeed | toggleState
  | getMotorPosition | getMotorSpeed | broadcastDatapoint | requestDatapoint | ping
  deriving DecidableEq, Repr

/-- The fields of a Command Envelope other than its command id, with the length of the frame that
carries it (R84, R95). -/
structure Envelope where
  /-- The frame's length, 0 to 8 (R82, R171). -/
  len : Fin 9
  /-- The low nibble of byte0: sequence, or identifier id. -/
  seq : Nibble
  /-- The high nibble of byte1: target id (motor, stream). -/
  target : Nibble
  /-- The low nibble of byte1: flags, status, or secondary target (channel). -/
  flags : Nibble
  /-- Bytes 2 to 5: the float pattern, byte 2 the least significant (R52, R84). -/
  value : Word32
  /-- Bytes 6 and 7, used by no command (R84, R94). -/
  tail : BitVec 16
  deriving DecidableEq, Repr

/-- The instructions. A port operation's operands are the fields of its format, whole (R87, R90); a
wire command's operand is its envelope (R84, R91). -/
inductive Instr where
  -- Command Codec (R120 to R133)
  | clear
  | addU8 (v : Word32)
  | addU16 (v : Word32)
  | addBool (v : Word32)
  | addFloat (v : Word32)
  | getU8
  | getU16
  | getBool
  | getFloat
  | getBuf
  | getLen
  | putBuf (len : BitVec 4) (data : Payload)
  -- Address Codec (R140 to R143)
  | pack (a b : BitVec 16)
  | unpack (v : Word32)
  | packNib (a b : BitVec 16)
  | unpackNib (v : Word32)
  -- Frame Matcher (R152 to R157)
  | tryTake (id mask : Ident)
  | readM (id mask : Ident)
  | readMT (t : Word32) (id mask : Ident)
  | availM (id mask : Ident)
  | mReset
  -- Transport (R177)
  | sendF (id : Ident) (len : BitVec 4)
  -- Wire commands (R195 to R204)
  | eStop (e : Envelope)
  | calibrate (e : Envelope)
  | setMotorPosition (e : Envelope)
  | setMotorSpeed (e : Envelope)
  | toggleState (e : Envelope)
  | getMotorPosition (e : Envelope)
  | getMotorSpeed (e : Envelope)
  | broadcastDatapoint (e : Envelope)
  | requestDatapoint (e : Envelope)
  | ping (e : Envelope)
  deriving DecidableEq, Repr

end Sys2Proof
end

