-- ==== Sys2Proof/Machine/Bits.lean ====
section
/-! DEFINITION. Bit-field and byte-order helpers: the bytes of a value, the canonical payload of a
length, and the layout of the Command Envelope (R8, R11, R84). -/

namespace Sys2Proof.Machine

/-- Byte `k` of a value: bits `8k+7:8k` (R9, R11). -/
def byteOf (v : Payload) (k : Nat) : Byte := v.extractLsb' (8 * k) 8

/-- The first `len` bytes of a payload, the bytes at index `len` and above zero (R11). -/
def maskBytes (len : Nat) (data : Payload) : Payload :=
  data &&& BitVec.ofNat 64 (2 ^ (8 * len) - 1)

/-- The command id nibble of a payload: byte0 bits 7:4 (R84). -/
def cmdOf (data : Payload) : Nibble := data.extractLsb' 4 4

/-- The envelope's fields of a payload of `len` bytes (R84). -/
def envelopeOf (len : Fin 9) (data : Payload) : Envelope where
  len := len
  seq := data.extractLsb' 0 4
  target := data.extractLsb' 12 4
  flags := data.extractLsb' 8 4
  value := data.extractLsb' 16 32
  tail := data.extractLsb' 48 16

/-- The payload of an envelope with command id nibble `cmd` (R84). -/
def envelopeData (cmd : Nibble) (e : Envelope) : Payload :=
  e.tail ++ e.value ++ e.target ++ e.flags ++ cmd ++ e.seq

/-- The command id nibble of each command (R91). -/
def cmdCode : CmdId → Nibble
  | .eStop => 0x0
  | .calibrate => 0x1
  | .setMotorPosition => 0x2
  | .setMotorSpeed => 0x3
  | .toggleState => 0x4
  | .getMotorPosition => 0x5
  | .getMotorSpeed => 0x6
  | .broadcastDatapoint => 0x7
  | .requestDatapoint => 0x8
  | .ping => 0x9

end Sys2Proof.Machine
end

