-- ==== Sys2Proof/Config.lean ====
section
/-! DEFINITION. What an implementation fixes: the sizes the spec settles and the parameters it leaves
open (R6, R7, R97; the table of open parameters of 92_eei_decisions.md). -/

namespace Sys2Proof

/-- `BUF_BYTES`: the capacity of the command buffer, "always 8" (R6, R7). -/
def bufBytes : Nat := 8

/-- What an address of the buffer space that no write has reached reads as: the reset value 0x00 (R35). -/
def unlistedByte : Byte := 0x00

/-- `FULLMASK` compares every identifier bit (R7, R97). -/
def fullMask : Ident := 0xFFF

/-- `DESTMASK`: the destination field, identifier bits 11:6 (R97). -/
def destMask : Ident := 0xFC0

/-- `SRCMASK`: the source field, identifier bits 5:0 (R97). -/
def srcMask : Ident := 0x03F

/-- `BCAST`: the broadcast destination address (R80, R97). -/
def bcast : BitVec 6 := 0x3F

/-- The identifier pattern of a broadcast listener (R225). -/
def broadcastPattern : Ident := 0xFC0

/-- The float slot of a Ping reply: the bytes 50 4F 4E 47 as a little-endian pattern (R204, R235). -/
def pongPattern : Word32 := 0x474E4F50

/-- The parameters the spec leaves open, fixed when the block and its host are built (R7, R29).
They stand in the state as plain data that no step writes, so that a statement about every state is a
statement about every choice of them. -/
structure Params where
  /-- `PQ_DEPTH`, the capacity of the pending queue; `none` is unbounded (R7, R151). DESIGN CHOICE: 0 is
  admitted, where R7 and D18 say a natural number and the table of open parameters 1 or more
  (notes/assumptions/20.md). -/
  pqDepth : Option Nat
  /-- Whether the transport offers `flush()` (R157, R175). -/
  offersFlush : Bool
  /-- `SELF`, the node's own logical address, held by its host (R7, R220, R232). -/
  self : BitVec 6
  /-- `T_REPLY`, the master's reply timeout in ticks (R7, R224). -/
  tReply : Word32
  /-- `T_LISTEN`, the slave's listen timeout in ticks (R7, R233). -/
  tListen : Word32
  deriving DecidableEq, Repr

end Sys2Proof
end

