-- ==== Sys2Proof/Machine/State.lean ====
section
/-! DEFINITION. The state as plain data: the block's five items (R20), its ports, the transport and the
time input it is attached to (R30), the host that drives it (R220, R232), and the reset state (R35). -/

namespace Sys2Proof.Machine

/-- Why a step faults. There is no constructor: no operation of this block stops the machine. Every error
the spec names ends one operation with a status in its response word and leaves the block ready for the
next command (R250, R255, R256), so it is a next state; and no operation can reach an address outside the
buffer (R56). Safe: nothing is cut short. -/
inductive Fault where
  deriving DecidableEq, Repr

/-- Why an instruction has no meaning. -/
inductive Refusal where
  /-- Raised by an arm of `exec` whose instruction is not modelled; safe, since nothing can be proved of a
  next state. No arm raises it. -/
  | notModelled (mnemonic : String)
  deriving DecidableEq, Repr

/-- The command buffer space: (address, byte) pairs in one canonical form, addresses strictly rising and
no entry equal to what an unlisted address reads as (R50). -/
abbrev Memory := List Host.Cell

/-- A frame: identifier, length 0 to 8, and DATA field (R11, R83, R171). -/
structure Frame where
  id : Ident
  len : Fin 9
  data : Payload
  deriving DecidableEq, Repr

/-- The status codes of a response (R88, R250). -/
inductive Status where
  | ok | outOfRange | transportError | queueFull | illegalOp
  deriving DecidableEq, Repr

/-- A response, field by field as the response word carries it (R88). -/
structure Response where
  status : Status
  hit : Bool
  res0 : Word32
  res1 : Word32
  frame : Frame
  deriving DecidableEq, Repr

/-- The operations that can stay in progress from one step to the next (R161). -/
inductive MatcherOp where
  | readM | readMT | availM | mReset
  deriving DecidableEq, Repr

/-- What the outside world does to the block's inputs at one step: which transport calls would fail
(R176), how much time passes between the step's own samples of `NOW` (R155), and whether hardware reset is
asserted (R280). -/
structure Link where
  readFails : Bool
  availFails : Bool
  writeFails : Bool
  flushFails : Bool
  /-- The backlog that a failing flush leaves behind, of which the spec says only that it is "as the transport
  left it" (R176). -/
  flushLeaves : List Frame
  /-- Ticks that pass inside an iteration, before its deadline test samples `NOW` afresh (R155). -/
  lag : Nat
  hardReset : Bool
  deriving DecidableEq, Repr

/-- The environment's move before one step: the ticks that pass, the frames that join the transport's
backlog, and the inputs the step then sees (R59, R161, R264). -/
structure Tick where
  elapsed : Nat
  arrivals : List Frame
  link : Link
  deriving DecidableEq, Repr

/-- What the host sets out to do when it is idle. `word` issues one command word; the others are the host
sequences of 45_host_sequences.md. -/
inductive HostAct where
  /-- Issue one command word (R86). -/
  | word (cw : CommandWord)
  /-- The master's operation template (R221, R222); for BroadcastDatapoint, which has no request, wait for a
  broadcast (R225). -/
  | request (cmd : CmdId) (dest target flags : BitVec 16) (value : Word32)
  /-- The slave's `listen()` (R233). -/
  | listen
  /-- The slave's `pollOnce()` (R234). -/
  | pollOnce
  /-- Send a broadcast datapoint (R239). -/
  | broadcast (stream channel : BitVec 16) (value : Word32)
  deriving DecidableEq, Repr

/-- What the host is waiting for while an exchange is outstanding (R238). -/
inductive Role where
  /-- The slave in `listen()`: any frame for this node (R233). -/
  | request
  /-- The slave in `pollOnce()`, before the frame is taken: the answer of `AVAILM` (R234). -/
  | poll
  /-- The master: the reply to `cmd` (R221). -/
  | reply (cmd : CmdId)
  /-- The master's passive listener: any broadcast (R225). -/
  | broadcast
  /-- The node at bring-up: the end of `MRESET` (R240, R282). -/
  | bringUp
  deriving DecidableEq, Repr

/-- Which arguments a command's handler slot takes, and whether its command returns a value: a row of R236. -/
structure Slot where
  cmd : CmdId
  target : Bool
  flags : Bool
  value : Bool
  returns : Bool
  deriving DecidableEq, Repr

/-- How a master reads what it has decoded: the result types of R221. -/
inductive Report where
  | control | motor | datapoint | alive
  deriving DecidableEq, Repr

/-- One line of a host sequence (R222, R225, R233 to R235, R239, R240): a block operation with the host's
operands and the names its results get, or an action of the host's own (`call`, `pong`, `report`). -/
inductive HostOp where
  /-- `CLEAR`. -/
  | clear
  /-- `PUTBUF f.data, f.len`. -/
  | putFrame
  /-- `GETU8 -> b0`. -/
  | getB0
  /-- `GETU8 -> b1`. -/
  | getB1
  /-- `GETFLOAT -> p`. -/
  | getFloat
  /-- `UNPACK f.id -> dst, src`. -/
  | unpackId
  /-- `UNPACKNIB b0 -> cmd, seq`. -/
  | unpackB0
  /-- `UNPACKNIB b1 -> target, flags`. -/
  | unpackB1
  /-- `PACKNIB cmd, SEQ -> b0`, and `SEQ` counts up (R220). -/
  | packCommand (cmd : CmdId)
  /-- `PACKNIB a, b -> b0`. -/
  | packB0 (a b : BitVec 16)
  /-- `PACKNIB a, b -> b1`. -/
  | packB1 (a b : BitVec 16)
  /-- `ADDU8 b0`. -/
  | addB0
  /-- `ADDU8 b1`. -/
  | addB1
  /-- `ADDFLOAT v`, the caller's value. -/
  | addFloat (v : Word32)
  /-- `ADDFLOAT q`, the reply's value. -/
  | addResult
  /-- `PACK d, SELF -> id`. -/
  | packTo (d : BitVec 16)
  /-- `PACK SELF, d -> id`. -/
  | packFrom (d : BitVec 16)
  /-- `PACK src, SELF -> id`. -/
  | packReply
  /-- `SENDF id, len`. -/
  | sendF (len : BitVec 4)
  /-- `READMT id, 0xFFF, T_REPLY` (R222, R223). -/
  | awaitReply (cmd : CmdId)
  /-- `READMT id, 0xFC0, T_LISTEN` (R233). -/
  | awaitRequest
  /-- `READM 0xFC0, 0xFC0` (R225). -/
  | awaitBroadcast
  /-- `AVAILM id, 0xFC0` (R234). -/
  | availRequest
  /-- `TRYTAKE id, 0xFC0` (R234). -/
  | takeRequest
  /-- `MRESET`, at bring-up (R240, R282). -/
  | resetMatcher
  /-- Call a handler slot; what it returns is the reply's value `q` (R235, R236). -/
  | call (slot : Slot)
  /-- Ping's fixed marker is the reply's value `q` (R204, R235). -/
  | pong
  /-- Return the typed result (R221). -/
  | report (kind : Report)
  deriving DecidableEq, Repr

/-- The names a host sequence gives to results it uses again, as the listings of R222 and R235 write them. -/
structure Vars where
  /-- `f`, the frame received. -/
  f : Frame
  /-- `src`, the requester's address. -/
  src : Word32
  /-- `b0`, byte0. -/
  b0 : Word32
  /-- `b1`, byte1. -/
  b1 : Word32
  /-- `target`: also motor id and stream. -/
  target : Word32
  /-- `flags`: also status and channel. -/
  flags : Word32
  /-- `p`, the float received. -/
  p : Word32
  /-- `q`, the float to reply with. -/
  q : Word32
  /-- `txid`, `rxid` or `rid`, the identifier in use. -/
  id : Word32
  deriving DecidableEq, Repr

/-- What a handler slot was called with: the slot's command id and the arguments of R236, `none` where the
handler does not get that argument. -/
structure HandlerCall where
  cmd : CmdId
  target : Option Nibble
  flags : Option Nibble
  value : Option Word32
  deriving DecidableEq, Repr

/-- The typed result of a master operation (R221, R224, R226), or the error status that ended a host
sequence (R256). -/
inductive HostResult where
  /-- EStop, Calibrate and ToggleState: true when `error_flag` is 0 (R195, R196, R199). -/
  | control (nonError : Bool)
  /-- The position and speed commands: status, echoed motor id and float (R197, R198, R200, R201). -/
  | motor (errorFlag uncalibratedFlag : Bool) (motorId : Nibble) (value : Word32)
  /-- The datapoint commands (R202, R203). -/
  | datapoint (stream channel : Nibble) (value : Word32)
  /-- Ping: whether a frame arrived in time (R204, R226). -/
  | alive (arrived : Bool)
  /-- A timed-out exchange (R224, R260). -/
  | noResponse
  /-- An operation responded with a status other than `OK` (R222, R256). -/
  | failed (status : Status)
  deriving DecidableEq, Repr

/-- The state of a node. -/
structure State where
  /-- `x[0..7]`, the command buffer (R21). -/
  buf : Memory
  /-- `CUR`, the cursor (R22). -/
  cur : BitVec 4
  /-- `PQ`, the pending-frame queue, head first (R23). -/
  pq : List Frame
  /-- `DL`, the deadline of a timed read (R25); a natural number, as `NOW` is (R155). -/
  dl : Nat
  /-- `OPREG`: the latched operand `ID` (R25). -/
  opId : Ident
  /-- `OPREG`: the latched operand `MASK` (R25). -/
  opMask : Ident
  /-- `OPREG`: the operation in progress; the busy bit is whether there is one (R20, R25). -/
  op : Option MatcherOp
  /-- The response port's history, the latest response first (R88). -/
  rsp : List Response
  /-- `TQ`, the transport's backlog, head first (R170). -/
  tq : List Frame
  /-- The frames the transport has accepted for sending, each with `success` = 1, in order (R59, R174). -/
  sent : List Frame
  /-- `NOW`, the time input (R264). -/
  now : Nat
  /-- The transport and reset inputs the current step sees (R176, R280). -/
  link : Link
  /-- The environment's moves still to come, one for each step; after the last, nothing happens (R59). -/
  ticks : List Tick
  /-- What the host will set out to do, in order (R14, R27). -/
  script : List HostAct
  /-- The master's sequence counter `SEQ` (R220). -/
  seq : Nibble
  /-- What remains of the host sequence under way, in order; empty when there is none (R221, R235). -/
  plan : List HostOp
  /-- The names of the host sequence under way (R222, R235). -/
  vars : Vars
  /-- Whether the host awaits the response of a matcher operation of its sequence: Awaiting, or not (R238). -/
  waiting : Bool
  /-- What the host waits for; read only while it waits (R238). -/
  role : Role
  /-- What the handlers will return, one for each call, `none` for no value; after the last, no value
  (R232, R236). -/
  handlerReturns : List (Option Word32)
  /-- The handler calls made, in order (R236). -/
  calls : List HandlerCall
  /-- The results of the host's operations, in order (R221). -/
  results : List HostResult
  /-- The parameters fixed at build (R7, R29). -/
  params : Params
  deriving DecidableEq, Repr

/-- No call fails, no time passes inside the step, reset is not asserted. -/
def Link.quiet : Link where
  readFails := false
  availFails := false
  writeFails := false
  flushFails := false
  flushLeaves := []
  lag := 0
  hardReset := false

/-- No names given yet: a host at rest, and after a restart (notes/assumptions/2.md). -/
def Vars.none : Vars where
  f := { id := 0, len := 0, data := 0 }
  src := 0
  b0 := 0
  b1 := 0
  target := 0
  flags := 0
  p := 0
  q := 0
  id := 0

/-- The node right after reset: cursor 0, queue empty, buffer zero, no operation in progress (R35, R280),
`SEQ` 0 (R220), no sequence under way but the bring-up that the node does before its first exchange, `MRESET`
(R240, R282). DESIGN CHOICE, where the spec gives no value: the transport's backlog
is empty at the start of a run (notes/assumptions/22.md), the open parameters are at the values of
notes/assumptions/3.md, and `DL`, the latched operands, the host's role and its names at those of
notes/assumptions/2.md. -/
def State.reset : State where
  buf := []
  cur := 0
  pq := []
  dl := 0
  opId := 0
  opMask := 0
  op := none
  rsp := []
  tq := []
  sent := []
  now := 0
  link := Link.quiet
  ticks := []
  script := []
  seq := 0
  plan := [.resetMatcher]
  vars := Vars.none
  waiting := false
  role := .request
  handlerReturns := []
  calls := []
  results := []
  params := { pqDepth := none, offersFlush := false, self := 1, tReply := 100, tListen := 100 }

end Sys2Proof.Machine
end

