-- ==== Sys2Proof/Machine/Operands.lean ====
section
/-! DEFINITION. Operand assembly: which bits of a field an operation uses (R90), and the operand values
and frames built from them. No operand is sign-extended, scaled or shifted. -/

namespace Sys2Proof.Machine

/-- The value `ADDU8` appends: `V[7:0]` (R122). -/
def u8Operand (v : Word32) : Payload := (v.extractLsb' 0 8).setWidth 64

/-- The value `ADDU16` appends: `V[15:0]` (R123). -/
def u16Operand (v : Word32) : Payload := (v.extractLsb' 0 16).setWidth 64

/-- The value `ADDBOOL` appends: 0x01 when `V[0]` is 1, else 0x00 (R124). -/
def boolOperand (v : Word32) : Payload := (v.extractLsb' 0 1).setWidth 64

/-- The value `ADDFLOAT` appends: the pattern `V[31:0]` (R125). -/
def floatOperand (v : Word32) : Payload := v.setWidth 64

/-- `RES0` of `GETBOOL`: 1 for any byte that is not 0x00 (R129). -/
def boolResult (v : Payload) : Word32 := if v.setWidth 8 = (0 : Byte) then 0 else 1

/-- The identifier of `PACK`: `{A[5:0], B[5:0]}` (R80, R140). -/
def packIdent (a b : BitVec 16) : Ident := a.extractLsb' 0 6 ++ b.extractLsb' 0 6

/-- The destination field of an identifier: bits 11:6 (R80, R141). -/
def destOf (id : Ident) : BitVec 6 := id.extractLsb' 6 6

/-- The source field of an identifier: bits 5:0 (R80, R141). -/
def sourceOf (id : Ident) : BitVec 6 := id.extractLsb' 0 6

/-- The byte of `PACKNIB`: `{A[3:0], B[3:0]}` (R81, R142). -/
def packNibbles (a b : BitVec 16) : Byte := a.extractLsb' 0 4 ++ b.extractLsb' 0 4

/-- The high nibble of a byte (R143). -/
def highNibble (b : Byte) : Nibble := b.extractLsb' 4 4

/-- The low nibble of a byte (R143). -/
def lowNibble (b : Byte) : Nibble := b.extractLsb' 0 4

/-- The canonical form of a frame: the payload bytes at index `len` and above zero (R11, R171). -/
def Frame.canon (f : Frame) : Frame := { f with data := maskBytes f.len f.data }

/-- A frame in canonical form (R24). -/
def Frame.canonical (f : Frame) : Bool := maskBytes f.len f.data == f.data

/-- `NOFRAME`: identifier 0, length 0, no payload (R10, R80). -/
def noFrame : Frame := { id := 0, len := 0, data := 0 }

/-- The filter `match(f, ID, MASK)`: `(f.id & MASK) == (ID & MASK)` (R150). -/
def Frame.isMatch (f : Frame) (id mask : Ident) : Bool := f.id &&& mask == id &&& mask

/-- `take`'s search: the first frame of the queue that matches, and the queue without it (R151). -/
def takeFirst (id mask : Ident) : List Frame → Option (Frame × List Frame)
  | [] => none
  | f :: q =>
    if f.isMatch id mask then some (f, q)
    else match takeFirst id mask q with
      | none => none
      | some (g, q') => some (g, f :: q')

/-- Whether some frame of the queue matches (R156). -/
def anyMatch (id mask : Ident) (q : List Frame) : Bool := q.any (fun f => f.isMatch id mask)

/-- The command carries a float in its request, and the responder reads it (R191, R235). -/
def carriesFloat : CmdId → Bool
  | .setMotorPosition | .setMotorSpeed => true
  | _ => false

/-- The high nibble operand of a request's byte1: the target, or 0 for a command without one (R191, R195,
R204). -/
def requestTarget (c : CmdId) (target : BitVec 16) : BitVec 16 :=
  match c with
  | .eStop | .ping => 0
  | _ => target

/-- The low nibble operand of a request's byte1: the boolean of ToggleState, taken from bit 0, the channel
of a datapoint, else 0 (R193, R199, R203). -/
def requestFlags (c : CmdId) (flags : BitVec 16) : BitVec 16 :=
  match c with
  | .toggleState => (flags.extractLsb' 0 1).setWidth 16
  | .requestDatapoint | .broadcastDatapoint => flags
  | _ => 0

/-- The length of the master's request frame: 6 with a float, else 2 (R85, R191). -/
def requestLen (c : CmdId) : BitVec 4 := if carriesFloat c then 6 else 2

end Sys2Proof.Machine
end

