-- ==== Sys2Proof/Machine/Flags.lean ====
section
/-! DEFINITION. The block keeps no flags (R26): an operation's outcome stands only in its response. This
file holds the fields of the response word (R88) and the two status flags that a master reads in the low
nibble of a reply's byte1 (R193). -/

namespace Sys2Proof.Machine

/-- `STATUS` codes (R88, R250). -/
def statusCode : Status → BitVec 4
  | .ok => 0
  | .outOfRange => 1
  | .transportError => 2
  | .queueFull => 3
  | .illegalOp => 4

/-- The 80-bit record of a frame: `id`, `len`, `data[7]` to `data[0]` (R83). -/
def Frame.record (f : Frame) : FrameRecord := f.id ++ BitVec.ofNat 4 f.len ++ f.data

/-- The response word: `STATUS`, `HIT`, three zero bits, `RES0`, `RES1`, `F` (R88). -/
def Response.word (r : Response) : ResponseWord :=
  statusCode r.status ++ BitVec.ofBool r.hit ++ (0 : BitVec 3) ++ r.res0 ++ r.res1 ++ r.frame.record

/-- A response with status `OK` and every other field zero (R88). -/
def Response.ok : Response where
  status := .ok
  hit := false
  res0 := 0
  res1 := 0
  frame := noFrame

/-- An error response: the status, every other field zero (R88, R255). -/
def Response.error (st : Status) : Response := { Response.ok with status := st }

/-- A response with the scalar results (R88). -/
def Response.values (res0 res1 : Word32) : Response := { Response.ok with res0 := res0, res1 := res1 }

/-- A response that returns a frame: `HIT` = 1 (R88). -/
def Response.found (f : Frame) : Response := { Response.ok with hit := true, frame := f }

/-- `error_flag`: bit 3 of the flags nibble (R193). -/
def errorFlag (flags : Nibble) : Bool := flags.getLsbD 3

/-- `uncalibrated_flag`: bit 2 of the flags nibble (R193). -/
def uncalibratedFlag (flags : Nibble) : Bool := flags.getLsbD 2

end Sys2Proof.Machine
end

