-- ==== Sys2Proof/Machine/Ops.lean ====
section
/-! DEFINITION. The named operations the meanings are written over: the command buffer, responding and
raising, the codec and address operations, the transport port, the matcher's loops, and the host's
handling of a received envelope. -/

namespace Sys2Proof.Machine

/-! ### The command buffer (R50, R52, R56) -/

/-- The byte at an address; an unlisted address reads as its reset value (R35). -/
def Memory.read : Memory → Nat → Byte
  | [], _ => unlistedByte
  | (k, b) :: m, a => if k = a then b else Memory.read m a

/-- Store one byte, keeping the canonical form: writing what an unlisted address reads as removes the
entry. -/
def Memory.write : Memory → Nat → Byte → Memory
  | [], a, b => if b = unlistedByte then [] else [(a, b)]
  | (k, c) :: m, a, b =>
    if a < k then (if b = unlistedByte then (k, c) :: m else (a, b) :: (k, c) :: m)
    else if a = k then (if b = unlistedByte then m else (a, b) :: m)
    else (k, c) :: Memory.write m a b

/-- Addresses rise strictly from `lo`, exist (are below 8), and no entry equals an unlisted byte. -/
def Memory.wfFrom : Nat → Memory → Bool
  | _, [] => true
  | lo, (k, b) :: m =>
    decide (lo ≤ k) && decide (k < bufBytes) && decide (b ≠ unlistedByte) && Memory.wfFrom (k + 1) m

/-- The canonical form of the buffer (R50). -/
def Memory.wf (m : Memory) : Bool := Memory.wfFrom 0 m

/-- `MemWrite(a, n, v)`: `x[a+k] <- v[8k+7:8k]` for `k` in 0..n-1, little-endian (R9, R52). -/
def Memory.writeN (m : Memory) (a : Nat) : Nat → Payload → Memory
  | 0, _ => m
  | n + 1, v => Memory.writeN (Memory.write m a (v.setWidth 8)) (a + 1) n (v >>> 8)

/-- A byte as a typed read sees it: the byte at an address of the buffer, 0x00 beyond it (R56, R126). -/
def Memory.readPast (m : Memory) (a : Nat) : Byte := if a < bufBytes then Memory.read m a else 0

/-- The `n` bytes from address `a`, little-endian, the bytes beyond the buffer 0x00 (R9, R126). -/
def Memory.readN (m : Memory) (a : Nat) : Nat → Payload
  | 0 => 0
  | n + 1 => Memory.readN m (a + 1) n <<< 8 ||| (Memory.readPast m a).setWidth 64

/-! ### Responding and raising (R9, R88, R255, R256) -/

/-- `respond(...)`: the operation ends, its response stands on the response port, and the block is ready
for the next command word (R9, R28, R88). -/
def respond (r : Response) (s : State) : State := { s with rsp := r :: s.rsp, op := none }

/-- `raise`: taking an exception. The operation in progress stops, the response carries the status with
every other field zero, the busy bit clears, and nothing is saved (R255). There is no return operation:
the block is then idle and accepts the next command word (R256). -/
def raise (st : Status) (s : State) : State := respond (Response.error st) s

/-- The latest response: what the response port shows the host (R88). -/
def State.response (s : State) : Response :=
  match s.rsp with
  | [] => Response.ok
  | r :: _ => r

/-- `RES0` of the latest response. -/
def State.res0 (s : State) : Word32 := s.response.res0

/-- `RES1` of the latest response. -/
def State.res1 (s : State) : Word32 := s.response.res1

/-! ### Command Codec (R120 to R133) -/

/-- `CLEAR` (R120). -/
def clearOp (s : State) : State := respond Response.ok { s with buf := [], cur := 0 }

/-- The common rule of the appends: `n` bytes of `v` at the cursor, or `OutOfRange` with nothing written
(R121). -/
def appendOp (n : Nat) (v : Payload) (s : State) : State :=
  if s.cur.toNat + n > bufBytes then raise .outOfRange s
  else respond Response.ok
    { s with buf := Memory.writeN s.buf s.cur.toNat n v, cur := BitVec.ofNat 4 (s.cur.toNat + n) }

/-- The common rule of the reads: `n` bytes from the cursor, which advances and stops at 8; `res` makes
`RES0` of the value read (R126). -/
def readOp (n : Nat) (res : Payload → Word32) (s : State) : State :=
  respond (Response.values (res (Memory.readN s.buf s.cur.toNat n)) 0)
    { s with cur := BitVec.ofNat 4 (min (s.cur.toNat + n) bufBytes) }

/-- `GETLEN` (R131). -/
def getLenOp (s : State) : State := respond (Response.values (BitVec.ofNat 32 bufBytes) 0) s

/-- `GETBUF` (R132). -/
def getBufOp (s : State) : State :=
  respond { Response.ok with frame := { id := 0, len := 8, data := Memory.readN s.buf 0 bufBytes } } s

/-- `PUTBUF`: the first `len` bytes, the rest and the cursor kept, or `OutOfRange` with no byte written
(R133). -/
def putBufOp (len : Nat) (data : Payload) (s : State) : State :=
  if len > bufBytes then raise .outOfRange s
  else respond Response.ok { s with buf := Memory.writeN s.buf 0 len data }

/-! ### Address Codec (R140 to R143) -/

/-- `PACK` (R140). -/
def packOp (a b : BitVec 16) (s : State) : State :=
  respond (Response.values ((packIdent a b).setWidth 32) 0) s

/-- `UNPACK` of `V[11:0]` (R141). -/
def unpackOp (v : Word32) (s : State) : State :=
  respond (Response.values ((destOf (v.setWidth 12)).setWidth 32) ((sourceOf (v.setWidth 12)).setWidth 32)) s

/-- `PACKNIB` (R142). -/
def packNibOp (a b : BitVec 16) (s : State) : State :=
  respond (Response.values ((packNibbles a b).setWidth 32) 0) s

/-- `UNPACKNIB` of `V[7:0]` (R143). -/
def unpackNibOp (v : Word32) (s : State) : State :=
  respond (Response.values ((highNibble (v.setWidth 8)).setWidth 32) ((lowNibble (v.setWidth 8)).setWidth 32)) s

/-! ### The transport port (R170 to R176). A failed call is `TransportError` (R252). -/

/-- `TransportRead()`: the head of the backlog, canonicalised as it is taken in (R171, R172); `none` while
there is none (the call blocks). A failing read leaves the backlog unchanged (R176). -/
def transportRead (s : State) : Except Status (Option (Frame × State)) :=
  if s.link.readFails then .error .transportError
  else match s.tq with
    | [] => .ok none
    | f :: q => .ok (some (f.canon, { s with tq := q }))

/-- `TransportAvail()` (R173). -/
def transportAvail (s : State) : Except Status Bool :=
  if s.link.availFails then .error .transportError else .ok (!s.tq.isEmpty)

/-- `TransportWrite(id, bytes, len)`: one frame handed over, the first `len` bytes of `data` (R174). -/
def transportWrite (id : Ident) (data : Payload) (len : Nat) (s : State) : Except Status State :=
  if s.link.writeFails then .error .transportError
  else .ok { s with sent := s.sent ++ [Frame.canon { id := id, len := Fin.ofNat 9 len, data := data }] }

/-- `TransportFlush()`: empties the backlog (R175), or fails and leaves whatever it leaves (R176): whether it
succeeded, and the state. -/
def transportFlush (s : State) : Bool × State :=
  if s.link.flushFails then (false, { s with tq := s.link.flushLeaves }) else (true, { s with tq := [] })

/-- `SENDF`: the first `len` bytes of the buffer (R177). -/
def sendOp (id : Ident) (len : Nat) (s : State) : State :=
  if len > bufBytes then raise .outOfRange s
  else match transportWrite id (Memory.readN s.buf 0 bufBytes) len s with
    | .error e => raise e s
    | .ok s' => respond Response.ok s'

/-! ### Frame Matcher (R150 to R157) -/

/-- `|PQ| >= PQ_DEPTH` (R151). -/
def State.queueFull (s : State) : Bool :=
  match s.params.pqDepth with
  | none => false
  | some d => decide (d ≤ s.pq.length)

/-- `recv()`: the capacity check, then one frame from the transport (R151). -/
def recv (s : State) : Except Status (Option (Frame × State)) :=
  if s.queueFull then .error .queueFull else transportRead s

/-- `PQ <- PQ ++ [f]` (R153, R156). -/
def State.enqueue (f : Frame) (s : State) : State := { s with pq := s.pq ++ [f] }

/-- `respond(HIT = 1, F = f)`. -/
def respondFound (f : Frame) (s : State) : State := respond (Response.found f) s

/-- `TRYTAKE` (R152). -/
def tryTakeOp (id mask : Ident) (s : State) : State :=
  match takeFirst id mask s.pq with
  | some (f, q) => respondFound f { s with pq := q }
  | none => respond Response.ok s

/-- One iteration of `READM`'s loop (R153). While the transport has no frame it has no step: the block
stays as it is, still busy (R161). DESIGN CHOICE: the capacity check stands before that, so that with a full
queue `READM` raises `QueueFull` on a silent transport too (R151; notes/assumptions/24.md). -/
def iterReadM (s : State) : State :=
  match recv s with
  | .error e => raise e s
  | .ok none => s
  | .ok (some (f, s')) => if f.isMatch s.opId s.opMask then respondFound f s' else s'.enqueue f

/-- The deadline test of a timed read, on a fresh sample of `NOW` (R154, R155). -/
def deadlineTest (s : State) : State :=
  if s.dl ≤ s.now + s.link.lag then respond Response.ok { s with now := s.now + s.link.lag }
  else { s with now := s.now + s.link.lag }

/-- One iteration of `READMT`'s loop: the queue, the transport, the deadline, in that order (R154, R155). -/
def iterReadMT (s : State) : State :=
  match takeFirst s.opId s.opMask s.pq with
  | some (f, q) => respondFound f { s with pq := q }
  | none =>
    match transportAvail s with
    | .error e => raise e s
    | .ok false => deadlineTest s
    | .ok true =>
      match recv s with
      | .error e => raise e s
      | .ok none => deadlineTest s
      | .ok (some (f, s')) =>
        if f.isMatch s.opId s.opMask then respondFound f s' else deadlineTest (s'.enqueue f)

/-- One iteration of `AVAILM`'s drain, or its answer when nothing is available (R156). -/
def iterAvailM (s : State) : State :=
  match transportAvail s with
  | .error e => raise e s
  | .ok false => respond (Response.values (if anyMatch s.opId s.opMask s.pq then 1 else 0) 0) s
  | .ok true =>
    match recv s with
    | .error e => raise e s
    | .ok none => s
    | .ok (some (f, s')) => s'.enqueue f

/-- One iteration of `MRESET`'s flush: the transport's own where it is offered, else one discarding read
(R157). -/
def iterMReset (s : State) : State :=
  if s.params.offersFlush then
    match transportFlush s with
    | (false, s') => raise .transportError s'
    | (true, s') => respond Response.ok s'
  else
    match transportAvail s with
    | .error e => raise e s
    | .ok false => respond Response.ok s
    | .ok true =>
      match transportRead s with
      | .error e => raise e s
      | .ok none => s
      | .ok (some (_, s')) => s'

/-- One iteration of the operation in progress (R161). -/
def iterate : MatcherOp → State → State
  | .readM => iterReadM
  | .readMT => iterReadMT
  | .availM => iterAvailM
  | .mReset => iterMReset

/-- Accept a matcher operation: latch its operands and set busy (R25). -/
def accept (k : MatcherOp) (id mask : Ident) (s : State) : State :=
  { s with op := some k, opId := id, opMask := mask }

/-- `READM`: `take`, then the first iteration of the loop (R153). -/
def startReadM (id mask : Ident) (s : State) : State :=
  match takeFirst id mask s.pq with
  | some (f, q) => respondFound f { accept .readM id mask s with pq := q }
  | none => iterReadM (accept .readM id mask s)

/-- `READMT`: `DL <- NOW + T`, then the first iteration (R154). -/
def startReadMT (t : Word32) (id mask : Ident) (s : State) : State :=
  iterReadMT { accept .readMT id mask s with dl := s.now + t.toNat }

/-- `AVAILM`: the check of the queue, then the first iteration of the drain (R156). -/
def startAvailM (id mask : Ident) (s : State) : State :=
  if anyMatch id mask s.pq then respond (Response.values 1 0) (accept .availM id mask s)
  else iterAvailM (accept .availM id mask s)

/-- `MRESET`: `PQ <- []`, then the first iteration of the flush (R157). It has no operands to latch. -/
def startMReset (s : State) : State := iterMReset { s with op := some .mReset, pq := [] }

/-! ### Hardware reset and the environment (R59, R264, R280) -/

/-- Hardware reset: the block's state at its reset values, the operation in progress abandoned without a
response, the transport untouched (R35, R280); the host restarts with it, its sequence lost, and brings the
node up anew (R240, R282, R283). -/
def State.hardReset (s : State) : State :=
  { s with
    buf := State.reset.buf, cur := State.reset.cur, pq := State.reset.pq, dl := State.reset.dl
    opId := State.reset.opId, opMask := State.reset.opMask, op := State.reset.op
    seq := State.reset.seq, plan := State.reset.plan, vars := State.reset.vars
    waiting := State.reset.waiting, role := State.reset.role }

/-- The environment's move before a step: time passes, frames arrive at the transport, and the step's
inputs are set (R59, R264). -/
def State.advance (s : State) : State :=
  match s.ticks with
  | [] => { s with link := Link.quiet }
  | t :: ts =>
    { s with now := s.now + t.elapsed, tq := s.tq ++ t.arrivals, link := t.link, ticks := ts }

/-! ### The host's use of the block (45_host_sequences.md) -/

/-- `SELF` as an operand of `PACK`. -/
def State.selfOperand (s : State) : BitVec 16 := s.params.self.setWidth 16

/-- Record a result; the sequence is over (R221, R238). -/
def State.finish (r : HostResult) (s : State) : State :=
  { s with results := s.results ++ [r], waiting := false, plan := [] }

/-- The sequence is over with nothing to report (R233, R234). -/
def State.stopWaiting (s : State) : State := { s with waiting := false, plan := [] }

/-- The host waits for the response of the operation it has just issued (R238). -/
def State.await (r : Role) (s : State) : State := { s with waiting := true, role := r }

/-- The host reads the response of the operation it has just issued: an error ends the sequence (R222,
R256), else `bind` gives the results their names. -/
def State.collect (bind : Response → Vars → Vars) (s : State) : State :=
  if s.response.status = .ok then { s with vars := bind s.response s.vars }
  else s.finish (.failed s.response.status)

/-- `GETU8` (R127). -/
def getU8Op (s : State) : State := readOp 1 (fun v => v.setWidth 32) s

/-- `GETFLOAT` (R130). -/
def getFloatOp (s : State) : State := readOp 4 (fun v => v.setWidth 32) s

/-- `ADDU8` (R122). -/
def addU8Op (v : Word32) (s : State) : State := appendOp 1 (u8Operand v) s

/-- `ADDFLOAT` (R125). -/
def addFloatOp (v : Word32) (s : State) : State := appendOp 4 (floatOperand v) s

/-- The handler's float: the next value its software returns, zero where it returns none (R192, R236). -/
def State.nextReturn (s : State) : Word32 :=
  match s.handlerReturns with
  | some v :: _ => v
  | _ => 0

/-- The arguments a slot takes, of what the responder has decoded (R236). -/
def Slot.call (k : Slot) (v : Vars) : HandlerCall where
  cmd := k.cmd
  target := if k.target then some (v.target.setWidth 4) else none
  flags := if k.flags then some (v.flags.setWidth 4) else none
  value := if k.value then some v.p else none

/-- Call a handler slot: the call is recorded, its return used up, and the reply's float is the value it
returns, or zero for a command that returns none (R192, R232, R236). -/
def State.callHandler (k : Slot) (s : State) : State :=
  { s with calls := s.calls ++ [k.call s.vars], handlerReturns := s.handlerReturns.tail
           vars := { s.vars with q := if k.returns then s.nextReturn else 0 } }

/-- The typed result of what a master has decoded: `error_flag` and `uncalibrated_flag` of the low nibble,
the echoed target, the float (R193, R221, R226). -/
def Report.result (k : Report) (v : Vars) : HostResult :=
  match k with
  | .control => .control (!errorFlag (v.flags.setWidth 4))
  | .motor => .motor (errorFlag (v.flags.setWidth 4)) (uncalibratedFlag (v.flags.setWidth 4))
      (v.target.setWidth 4) v.p
  | .datapoint => .datapoint (v.target.setWidth 4) (v.flags.setWidth 4) v.p
  | .alive => .alive true

/-- The host does one line of its sequence: it issues the line's operation and reads its response, or, for
an operation that can stay in progress, waits for it (R14, R222, R238). -/
def hostOp (o : HostOp) (s : State) : State :=
  match o with
  | .clear => (clearOp s).collect fun _ v => v
  | .putFrame => (putBufOp s.vars.f.len s.vars.f.data s).collect fun _ v => v
  | .getB0 => (getU8Op s).collect fun r v => { v with b0 := r.res0 }
  | .getB1 => (getU8Op s).collect fun r v => { v with b1 := r.res0 }
  | .getFloat => (getFloatOp s).collect fun r v => { v with p := r.res0 }
  | .unpackId => (unpackOp (s.vars.f.id.setWidth 32) s).collect fun r v => { v with src := r.res1 }
  | .unpackB0 => (unpackNibOp s.vars.b0 s).collect fun _ v => v
  | .unpackB1 => (unpackNibOp s.vars.b1 s).collect fun r v => { v with target := r.res0, flags := r.res1 }
  | .packCommand c =>
    ({ packNibOp ((cmdCode c).setWidth 16) (s.seq.setWidth 16) s with seq := s.seq + 1 }).collect
      fun r v => { v with b0 := r.res0 }
  | .packB0 a b => (packNibOp a b s).collect fun r v => { v with b0 := r.res0 }
  | .packB1 a b => (packNibOp a b s).collect fun r v => { v with b1 := r.res0 }
  | .addB0 => (addU8Op s.vars.b0 s).collect fun _ v => v
  | .addB1 => (addU8Op s.vars.b1 s).collect fun _ v => v
  | .addFloat v => (addFloatOp v s).collect fun _ v => v
  | .addResult => (addFloatOp s.vars.q s).collect fun _ v => v
  | .packTo d => (packOp d s.selfOperand s).collect fun r v => { v with id := r.res0 }
  | .packFrom d => (packOp s.selfOperand d s).collect fun r v => { v with id := r.res0 }
  | .packReply => (packOp (s.vars.src.setWidth 16) s.selfOperand s).collect fun r v => { v with id := r.res0 }
  | .sendF len => (sendOp (s.vars.id.setWidth 12) len.toNat s).collect fun _ v => v
  | .awaitReply c =>
    (startReadMT s.params.tReply (s.vars.id.setWidth 12) fullMask s).await (.reply c)
  | .awaitRequest =>
    (startReadMT s.params.tListen (s.vars.id.setWidth 12) destMask s).await .request
  | .awaitBroadcast => (startReadM broadcastPattern destMask s).await .broadcast
  | .availRequest => (startAvailM (s.vars.id.setWidth 12) destMask s).await .poll
  | .takeRequest => (tryTakeOp (s.vars.id.setWidth 12) destMask s).await .request
  | .resetMatcher => (startMReset s).await .bringUp
  | .call k => s.callHandler k
  | .pong => { s with vars := { s.vars with q := pongPattern } }
  | .report k => s.finish (k.result s.vars)

/-- The host's next line (R14). -/
def planStep (s : State) : State :=
  match s.plan with
  | [] => s
  | o :: rest => hostOp o { s with plan := rest }

/-- The host sets out on a sequence and does its first line. -/
def startPlan (ops : List HostOp) (s : State) : State := planStep { s with plan := ops }

/-! ### The sequences that handle a received envelope (R222, R225, R235) -/

/-- The responder's decoding of a request, with the float where the command carries one (R235). -/
def decodePlan (withFloat : Bool) : List HostOp :=
  [.unpackId, .clear, .putFrame, .getB0, .getB1, .unpackB0, .unpackB1] ++
    if withFloat then [.getFloat] else []

/-- The responder's reply (R235). -/
def replyPlan : List HostOp := [.clear, .addB0, .addB1, .addResult, .packReply, .sendF 6]

/-- The responder's processing of a request: decode it, make the reply's value, send the reply (R235). -/
def servePlan (withFloat : Bool) (answer : HostOp) : List HostOp :=
  decodePlan withFloat ++ answer :: replyPlan

/-- A request whose command has no handler: decoded and dropped, no reply (R205, R235, R237). -/
def dropPlan : List HostOp := decodePlan false

/-- The master's decoding of a frame's header (R222). -/
def headerPlan : List HostOp := [.clear, .putFrame, .getB0, .getB1]

/-- The listener's decoding of a broadcast, in the order of its listing (R225). -/
def readBroadcastPlan : List HostOp := headerPlan ++ [.getFloat, .unpackB1, .report .datapoint]

/-- The master's reading of the reply to the command it sent: the header, the float where the result has
one, the result. The reply's own command id is not looked at (R206, R221, R222, R226). -/
def readReplyPlan (sentCommand : CmdId) : List HostOp :=
  match sentCommand with
  | .eStop | .calibrate | .toggleState => headerPlan ++ [.unpackB1, .report .control]
  | .setMotorPosition | .setMotorSpeed | .getMotorPosition | .getMotorSpeed =>
    headerPlan ++ [.unpackB1, .getFloat, .report .motor]
  | .requestDatapoint => headerPlan ++ [.unpackB1, .getFloat, .report .datapoint]
  | .broadcastDatapoint => readBroadcastPlan
  | .ping => [.report .alive]

/-- A received envelope, the frame's identifier that of the response in hand: a responder sets out to serve
it by `serve`; a master reads it as the reply it waits for; a passive listener as a broadcast (R238). -/
def receive (serve : List HostOp) (len : Fin 9) (data : Payload) (s : State) : State :=
  startPlan
    (match s.role with
      | .request | .poll | .bringUp => serve
      | .reply c => readReplyPlan c
      | .broadcast => readBroadcastPlan)
    { s with waiting := false
             vars := { s.vars with f := { id := s.response.frame.id, len := len, data := data } } }

end Sys2Proof.Machine
end

