-- ==== Sys2Proof/Machine/Address.lean ====
section
/-! DEFINITION. The meanings of the Address Codec operations, pure and total (R140 to R143). -/

namespace Sys2Proof.Machine

/-- `PACK` (R140). -/
def execPack (a b : BitVec 16) (s : State) : Host.Outcome State Fault Refusal := .next (packOp a b s)

/-- `UNPACK` (R141). -/
def execUnpack (v : Word32) (s : State) : Host.Outcome State Fault Refusal := .next (unpackOp v s)

/-- `PACKNIB` (R142). -/
def execPackNib (a b : BitVec 16) (s : State) : Host.Outcome State Fault Refusal :=
  .next (packNibOp a b s)

/-- `UNPACKNIB` (R143). -/
def execUnpackNib (v : Word32) (s : State) : Host.Outcome State Fault Refusal := .next (unpackNibOp v s)

end Sys2Proof.Machine
end

