-- ==== Sys2Proof/Machine/Codec.lean ====
section
/-! DEFINITION. The meanings of the Command Codec operations (R120 to R133). -/

namespace Sys2Proof.Machine

/-- `CLEAR` (R120). -/
def execClear (s : State) : Host.Outcome State Fault Refusal := .next (clearOp s)

/-- `ADDU8`: one byte, `V[7:0]` (R122). -/
def execAddU8 (v : Word32) (s : State) : Host.Outcome State Fault Refusal := .next (addU8Op v s)

/-- `ADDU16`: two bytes, `V[15:0]` (R123). -/
def execAddU16 (v : Word32) (s : State) : Host.Outcome State Fault Refusal :=
  .next (appendOp 2 (u16Operand v) s)

/-- `ADDBOOL`: one byte, 0x01 or 0x00 from `V[0]` (R124). -/
def execAddBool (v : Word32) (s : State) : Host.Outcome State Fault Refusal :=
  .next (appendOp 1 (boolOperand v) s)

/-- `ADDFLOAT`: four bytes, the pattern `V[31:0]` (R125). -/
def execAddFloat (v : Word32) (s : State) : Host.Outcome State Fault Refusal := .next (addFloatOp v s)

/-- `GETU8` (R127). -/
def execGetU8 (s : State) : Host.Outcome State Fault Refusal := .next (getU8Op s)

/-- `GETU16` (R128). -/
def execGetU16 (s : State) : Host.Outcome State Fault Refusal :=
  .next (readOp 2 (fun v => v.setWidth 32) s)

/-- `GETBOOL`: 1 for any byte that is not 0x00 (R129). -/
def execGetBool (s : State) : Host.Outcome State Fault Refusal := .next (readOp 1 boolResult s)

/-- `GETFLOAT` (R130). -/
def execGetFloat (s : State) : Host.Outcome State Fault Refusal := .next (getFloatOp s)

/-- `GETBUF` (R132). -/
def execGetBuf (s : State) : Host.Outcome State Fault Refusal := .next (getBufOp s)

/-- `GETLEN` (R131). -/
def execGetLen (s : State) : Host.Outcome State Fault Refusal := .next (getLenOp s)

/-- `PUTBUF` (R133). -/
def execPutBuf (len : BitVec 4) (data : Payload) (s : State) : Host.Outcome State Fault Refusal :=
  .next (putBufOp len.toNat data s)

end Sys2Proof.Machine
end

