-- ==== Sys2Proof/Machine/Matcher.lean ====
section
/-! DEFINITION. The meanings of the Frame Matcher operations (R152 to R157): the operation is accepted and
runs its first iteration; `iterate` runs the others, one a step (R161). -/

namespace Sys2Proof.Machine

/-- `TRYTAKE`, one step (R152). -/
def execTryTake (id mask : Ident) (s : State) : Host.Outcome State Fault Refusal :=
  .next (tryTakeOp id mask s)

/-- `READM` (R153). -/
def execReadM (id mask : Ident) (s : State) : Host.Outcome State Fault Refusal :=
  .next (startReadM id mask s)

/-- `READMT` (R154). -/
def execReadMT (t : Word32) (id mask : Ident) (s : State) : Host.Outcome State Fault Refusal :=
  .next (startReadMT t id mask s)

/-- `AVAILM` (R156). -/
def execAvailM (id mask : Ident) (s : State) : Host.Outcome State Fault Refusal :=
  .next (startAvailM id mask s)

/-- `MRESET` (R157). -/
def execMReset (s : State) : Host.Outcome State Fault Refusal := .next (startMReset s)

end Sys2Proof.Machine
end

