-- ==== Sys2Proof/Machine/Transport.lean ====
section
/-! DEFINITION. The meaning of `SENDF`, the block's path to the transport's write (R177). -/

namespace Sys2Proof.Machine

/-- `SENDF` (R177). -/
def execSendF (id : Ident) (len : BitVec 4) (s : State) : Host.Outcome State Fault Refusal :=
  .next (sendOp id len.toNat s)

end Sys2Proof.Machine
end

