-- ==== Sys2Proof/Machine/Wire.lean ====
section
/-! DEFINITION. The meanings of the wire commands (R195 to R204): what a node's host sets out to do, over the
block's operations, with an envelope it has received, and the first line of it. A responder decodes the
envelope, calls the command's handler with the arguments of R236 and sends the reply (R235); a master or a
listener decodes it by what it waits for (R221, R225). The steps that follow do the other lines, one each. -/

namespace Sys2Proof.Machine

/-- EStop: the handler gets nothing and returns no value (R195, R236). -/
def execEStop (e : Envelope) (s : State) : Host.Outcome State Fault Refusal :=
  .next (receive (servePlan false (.call
    { cmd := .eStop, target := false, flags := false, value := false, returns := false }))
    e.len (envelopeData 0x0 e) s)

/-- Calibrate: the handler gets the target and returns no value (R196, R236). -/
def execCalibrate (e : Envelope) (s : State) : Host.Outcome State Fault Refusal :=
  .next (receive (servePlan false (.call
    { cmd := .calibrate, target := true, flags := false, value := false, returns := false }))
    e.len (envelopeData 0x1 e) s)

/-- SetMotorPosition: the handler gets the motor and the float; the reply carries its value, or zero (R197,
R236). -/
def execSetMotorPosition (e : Envelope) (s : State) : Host.Outcome State Fault Refusal :=
  .next (receive (servePlan true (.call
    { cmd := .setMotorPosition, target := true, flags := false, value := true, returns := true }))
    e.len (envelopeData 0x2 e) s)

/-- SetMotorSpeed: the handler gets the motor and the float; the reply carries its value, or zero (R198,
R236). -/
def execSetMotorSpeed (e : Envelope) (s : State) : Host.Outcome State Fault Refusal :=
  .next (receive (servePlan true (.call
    { cmd := .setMotorSpeed, target := true, flags := false, value := true, returns := true }))
    e.len (envelopeData 0x3 e) s)

/-- ToggleState: the handler gets the target and the flags, the boolean, and returns no value (R199, R236). -/
def execToggleState (e : Envelope) (s : State) : Host.Outcome State Fault Refusal :=
  .next (receive (servePlan false (.call
    { cmd := .toggleState, target := true, flags := true, value := false, returns := false }))
    e.len (envelopeData 0x4 e) s)

/-- GetMotorPosition: the handler gets the motor and returns the position (R200, R236). -/
def execGetMotorPosition (e : Envelope) (s : State) : Host.Outcome State Fault Refusal :=
  .next (receive (servePlan false (.call
    { cmd := .getMotorPosition, target := true, flags := false, value := false, returns := true }))
    e.len (envelopeData 0x5 e) s)

/-- GetMotorSpeed: the handler gets the motor and returns the speed (R201, R236). -/
def execGetMotorSpeed (e : Envelope) (s : State) : Host.Outcome State Fault Refusal :=
  .next (receive (servePlan false (.call
    { cmd := .getMotorSpeed, target := true, flags := false, value := false, returns := true }))
    e.len (envelopeData 0x6 e) s)

/-- BroadcastDatapoint: a listener decodes stream, channel and float (R202, R225); a responder has no
handler for it and drops it (R205, R235). -/
def execBroadcastDatapoint (e : Envelope) (s : State) : Host.Outcome State Fault Refusal :=
  .next (receive dropPlan e.len (envelopeData 0x7 e) s)

/-- RequestDatapoint: the handler gets stream and channel and returns the value (R203, R236). -/
def execRequestDatapoint (e : Envelope) (s : State) : Host.Outcome State Fault Refusal :=
  .next (receive (servePlan false (.call
    { cmd := .requestDatapoint, target := true, flags := true, value := false, returns := true }))
    e.len (envelopeData 0x8 e) s)

/-- Ping: answered without a handler, with the bytes 50 4F 4E 47 in the float slot (R204, R236). -/
def execPing (e : Envelope) (s : State) : Host.Outcome State Fault Refusal :=
  .next (receive (servePlan false .pong) e.len (envelopeData 0x9 e) s)

end Sys2Proof.Machine
end

