-- ==== Sys2Proof/Machine/Dispatch.lean ====
section
/-! DEFINITION. One arm per instruction, each one direct call of its meaning. -/

namespace Sys2Proof.Machine

-- the meaning of every instruction, in the opcode table's order
def exec (i : Instr) (s : State) : Host.Outcome State Fault Refusal :=
  match i with
  | .clear => Sys2Proof.Machine.execClear s
  | .addU8 v => Sys2Proof.Machine.execAddU8 v s
  | .addU16 v => Sys2Proof.Machine.execAddU16 v s
  | .addBool v => Sys2Proof.Machine.execAddBool v s
  | .addFloat v => Sys2Proof.Machine.execAddFloat v s
  | .getU8 => Sys2Proof.Machine.execGetU8 s
  | .getU16 => Sys2Proof.Machine.execGetU16 s
  | .getBool => Sys2Proof.Machine.execGetBool s
  | .getFloat => Sys2Proof.Machine.execGetFloat s
  | .getBuf => Sys2Proof.Machine.execGetBuf s
  | .getLen => Sys2Proof.Machine.execGetLen s
  | .putBuf len data => Sys2Proof.Machine.execPutBuf len data s
  | .pack a b => Sys2Proof.Machine.execPack a b s
  | .unpack v => Sys2Proof.Machine.execUnpack v s
  | .packNib a b => Sys2Proof.Machine.execPackNib a b s
  | .unpackNib v => Sys2Proof.Machine.execUnpackNib v s
  | .tryTake id mask => Sys2Proof.Machine.execTryTake id mask s
  | .readM id mask => Sys2Proof.Machine.execReadM id mask s
  | .readMT t id mask => Sys2Proof.Machine.execReadMT t id mask s
  | .availM id mask => Sys2Proof.Machine.execAvailM id mask s
  | .mReset => Sys2Proof.Machine.execMReset s
  | .sendF id len => Sys2Proof.Machine.execSendF id len s
  | .eStop e => Sys2Proof.Machine.execEStop e s
  | .calibrate e => Sys2Proof.Machine.execCalibrate e s
  | .setMotorPosition e => Sys2Proof.Machine.execSetMotorPosition e s
  | .setMotorSpeed e => Sys2Proof.Machine.execSetMotorSpeed e s
  | .toggleState e => Sys2Proof.Machine.execToggleState e s
  | .getMotorPosition e => Sys2Proof.Machine.execGetMotorPosition e s
  | .getMotorSpeed e => Sys2Proof.Machine.execGetMotorSpeed e s
  | .broadcastDatapoint e => Sys2Proof.Machine.execBroadcastDatapoint e s
  | .requestDatapoint e => Sys2Proof.Machine.execRequestDatapoint e s
  | .ping e => Sys2Proof.Machine.execPing e s

end Sys2Proof.Machine
end

