-- ==== Sys2Proof/WellFormed.lean ====
section
/-! DEFINITION. Well-formed instructions. The types of a port operation's fields already hold exactly the
values its command word can carry (R87); a wire command must be in the canonical form of a frame of its
length, the payload bytes at index `len` and above zero (R11, R24). -/

namespace Sys2Proof

/-- The envelope of command `c` is a canonical payload of its length (R11). -/
def Envelope.wellFormed (c : CmdId) (e : Envelope) : Bool :=
  Machine.maskBytes e.len (Machine.envelopeData (Machine.cmdCode c) e) ==
    Machine.envelopeData (Machine.cmdCode c) e

/-- An instruction that an encoding of the spec can carry. -/
def WellFormed : Instr → Bool
  | .clear | .getU8 | .getU16 | .getBool | .getFloat | .getBuf | .getLen | .mReset => true
  | .addU8 _ | .addU16 _ | .addBool _ | .addFloat _ | .unpack _ | .unpackNib _ => true
  | .pack _ _ | .packNib _ _ | .putBuf _ _ | .sendF _ _ => true
  | .tryTake _ _ | .readM _ _ | .readMT _ _ _ | .availM _ _ => true
  | .eStop e => e.wellFormed .eStop
  | .calibrate e => e.wellFormed .calibrate
  | .setMotorPosition e => e.wellFormed .setMotorPosition
  | .setMotorSpeed e => e.wellFormed .setMotorSpeed
  | .toggleState e => e.wellFormed .toggleState
  | .getMotorPosition e => e.wellFormed .getMotorPosition
  | .getMotorSpeed e => e.wellFormed .getMotorSpeed
  | .broadcastDatapoint e => e.wellFormed .broadcastDatapoint
  | .requestDatapoint e => e.wellFormed .requestDatapoint
  | .ping e => e.wellFormed .ping

end Sys2Proof
end

