-- ==== Sys2Proof/Decode.lean ====
section
/-! DEFINITION. The decoder, total on the two encodings of the spec (command words, R86 to R90, and
frame payloads, R84 and R91), and the encoder written from the same tables. -/

namespace Sys2Proof

/-- An encoded instruction: a command word on the command port (R86), or the payload of a frame, its
length and its DATA field (R83, R84). -/
inductive Code where
  | word (cw : CommandWord)
  | payload (len : Fin 9) (data : Payload)
  deriving DecidableEq, Repr

/-- Why an encoding is no instruction. -/
inductive DecodeError where
  /-- The command word's `OPC` is not one of the 22 codes of R89 (R92, R254). -/
  | illegalOp (opc : Byte)
  /-- The payload's command id is 0xA to 0xF (R93, R205). -/
  | unassignedCommand (cmd : Nibble)
  deriving DecidableEq, Repr

/-- `OPC` = bits 79:72 (R86). -/
def opcField (cw : CommandWord) : Byte := cw.extractLsb' 72 8

/-- Formats V: `V` = bits 31:0 (R87). -/
def vField (cw : CommandWord) : Word32 := cw.extractLsb' 0 32

/-- Format P: `A` = bits 31:16 (R87). -/
def aField (cw : CommandWord) : BitVec 16 := cw.extractLsb' 16 16

/-- Format P: `B` = bits 15:0 (R87). -/
def bField (cw : CommandWord) : BitVec 16 := cw.extractLsb' 0 16

/-- Format M: `T` = bits 63:32 (R87). -/
def tField (cw : CommandWord) : Word32 := cw.extractLsb' 32 32

/-- Formats M and S: `ID` = bits 27:16 (R87). -/
def idField (cw : CommandWord) : Ident := cw.extractLsb' 16 12

/-- Format M: `MASK` = bits 11:0 (R87). -/
def maskField (cw : CommandWord) : Ident := cw.extractLsb' 0 12

/-- Format B: `LEN` = bits 67:64 (R87). -/
def bufLenField (cw : CommandWord) : BitVec 4 := cw.extractLsb' 64 4

/-- Format B: `DATA` = bits 63:0 (R87). -/
def dataField (cw : CommandWord) : Payload := cw.extractLsb' 0 64

/-- Format S: `LEN` = bits 3:0 (R87). -/
def sendLenField (cw : CommandWord) : BitVec 4 := cw.extractLsb' 0 4

/-- The instruction of a command word: `OPC` alone selects it, and the bits its format does not name
are ignored (R86, R89). -/
def decodeWord (cw : CommandWord) : Except DecodeError Instr :=
  match (opcField cw).toNat with
  | 0x00 => .ok .clear
  | 0x01 => .ok (.addU8 (vField cw))
  | 0x02 => .ok (.addU16 (vField cw))
  | 0x03 => .ok (.addBool (vField cw))
  | 0x04 => .ok (.addFloat (vField cw))
  | 0x05 => .ok .getU8
  | 0x06 => .ok .getU16
  | 0x07 => .ok .getBool
  | 0x08 => .ok .getFloat
  | 0x09 => .ok .getBuf
  | 0x0A => .ok .getLen
  | 0x0B => .ok (.putBuf (bufLenField cw) (dataField cw))
  | 0x10 => .ok (.pack (aField cw) (bField cw))
  | 0x11 => .ok (.unpack (vField cw))
  | 0x12 => .ok (.packNib (aField cw) (bField cw))
  | 0x13 => .ok (.unpackNib (vField cw))
  | 0x20 => .ok (.tryTake (idField cw) (maskField cw))
  | 0x21 => .ok (.readM (idField cw) (maskField cw))
  | 0x22 => .ok (.readMT (tField cw) (idField cw) (maskField cw))
  | 0x23 => .ok (.availM (idField cw) (maskField cw))
  | 0x24 => .ok .mReset
  | 0x30 => .ok (.sendF (idField cw) (sendLenField cw))
  | _ => .error (.illegalOp (opcField cw))

/-- The wire command of a payload: the high nibble of byte0 selects it (R91, R93, R194). -/
def decodePayload (len : Fin 9) (data : Payload) : Except DecodeError Instr :=
  match (Machine.cmdOf data).toNat with
  | 0x0 => .ok (.eStop (Machine.envelopeOf len data))
  | 0x1 => .ok (.calibrate (Machine.envelopeOf len data))
  | 0x2 => .ok (.setMotorPosition (Machine.envelopeOf len data))
  | 0x3 => .ok (.setMotorSpeed (Machine.envelopeOf len data))
  | 0x4 => .ok (.toggleState (Machine.envelopeOf len data))
  | 0x5 => .ok (.getMotorPosition (Machine.envelopeOf len data))
  | 0x6 => .ok (.getMotorSpeed (Machine.envelopeOf len data))
  | 0x7 => .ok (.broadcastDatapoint (Machine.envelopeOf len data))
  | 0x8 => .ok (.requestDatapoint (Machine.envelopeOf len data))
  | 0x9 => .ok (.ping (Machine.envelopeOf len data))
  | _ => .error (.unassignedCommand (Machine.cmdOf data))

/-- The instruction of an encoding, or the reason it is none. -/
def decode : Code → Except DecodeError Instr
  | .word cw => decodeWord cw
  | .payload len data => decodePayload len data

/-- Format N (R87). -/
def wordN (opc : Byte) : CommandWord := opc ++ (0 : BitVec 72)

/-- Format V (R87). -/
def wordV (opc : Byte) (v : Word32) : CommandWord := opc ++ (0 : BitVec 40) ++ v

/-- Format P (R87). -/
def wordP (opc : Byte) (a b : BitVec 16) : CommandWord := opc ++ (0 : BitVec 40) ++ a ++ b

/-- Format M (R87). -/
def wordM (opc : Byte) (t : Word32) (id mask : Ident) : CommandWord :=
  opc ++ (0 : BitVec 8) ++ t ++ (0 : BitVec 4) ++ id ++ (0 : BitVec 4) ++ mask

/-- Format B (R87). -/
def wordB (opc : Byte) (len : BitVec 4) (data : Payload) : CommandWord :=
  opc ++ (0 : BitVec 4) ++ len ++ data

/-- Format S (R87). -/
def wordS (opc : Byte) (id : Ident) (len : BitVec 4) : CommandWord :=
  opc ++ (0 : BitVec 44) ++ id ++ (0 : BitVec 12) ++ len

/-- The encoding of an instruction, the bits its format does not name sent as zero (R87, R89, R91). -/
def encode : Instr → Code
  | .clear => .word (wordN 0x00)
  | .addU8 v => .word (wordV 0x01 v)
  | .addU16 v => .word (wordV 0x02 v)
  | .addBool v => .word (wordV 0x03 v)
  | .addFloat v => .word (wordV 0x04 v)
  | .getU8 => .word (wordN 0x05)
  | .getU16 => .word (wordN 0x06)
  | .getBool => .word (wordN 0x07)
  | .getFloat => .word (wordN 0x08)
  | .getBuf => .word (wordN 0x09)
  | .getLen => .word (wordN 0x0A)
  | .putBuf len data => .word (wordB 0x0B len data)
  | .pack a b => .word (wordP 0x10 a b)
  | .unpack v => .word (wordV 0x11 v)
  | .packNib a b => .word (wordP 0x12 a b)
  | .unpackNib v => .word (wordV 0x13 v)
  | .tryTake id mask => .word (wordM 0x20 0 id mask)
  | .readM id mask => .word (wordM 0x21 0 id mask)
  | .readMT t id mask => .word (wordM 0x22 t id mask)
  | .availM id mask => .word (wordM 0x23 0 id mask)
  | .mReset => .word (wordN 0x24)
  | .sendF id len => .word (wordS 0x30 id len)
  | .eStop e => .payload e.len (Machine.envelopeData 0x0 e)
  | .calibrate e => .payload e.len (Machine.envelopeData 0x1 e)
  | .setMotorPosition e => .payload e.len (Machine.envelopeData 0x2 e)
  | .setMotorSpeed e => .payload e.len (Machine.envelopeData 0x3 e)
  | .toggleState e => .payload e.len (Machine.envelopeData 0x4 e)
  | .getMotorPosition e => .payload e.len (Machine.envelopeData 0x5 e)
  | .getMotorSpeed e => .payload e.len (Machine.envelopeData 0x6 e)
  | .broadcastDatapoint e => .payload e.len (Machine.envelopeData 0x7 e)
  | .requestDatapoint e => .payload e.len (Machine.envelopeData 0x8 e)
  | .ping e => .payload e.len (Machine.envelopeData 0x9 e)

/-- The length of the request frame of a payload's command: 6 bytes for the two commands that carry a
float and for the broadcast, else 2 (R85, R191, R202). -/
def tableLen (data : Payload) : Fin 9 :=
  match (Machine.cmdOf data).toNat with
  | 0x2 | 0x3 | 0x7 => 6
  | _ => 2

/-- The encoding that a row of the opcode table names: an 80-bit row is a command word, an 8-bit row is
byte0 of a frame whose other bytes are zero. -/
def tableCode (nbits w : Nat) : Option Code :=
  if nbits = 80 then some (.word (BitVec.ofNat 80 w))
  else if nbits = 8 then
    some (.payload (tableLen (BitVec.ofNat 64 (w % 256))) (BitVec.ofNat 64 (w % 256)))
  else none

/-- The instruction the decoder reads from a word of the opcode table. -/
def decodeTableWord (nbits w : Nat) : Option Instr :=
  match tableCode nbits w with
  | none => none
  | some c => (decode c).toOption

end Sys2Proof
end

