-- ==== Sys2Proof/Machine/Fetch.lean ====
section
/-! DEFINITION. Where the next instruction comes from, and the host's moves between instructions
(R27, R28, R222 to R240). -/

namespace Sys2Proof.Machine

/-- What a step finds to do. -/
inductive Next where
  /-- Hardware reset is asserted (R280). -/
  | reset
  /-- An operation is in progress: its next iteration (R28, R161). -/
  | continue (k : MatcherOp)
  /-- An encoded instruction to run, and the state once the host has taken it up. -/
  | run (c : Code) (s : State)
  /-- A move of the host's own, already made. -/
  | host (s : State)
  /-- The block is idle and the host has nothing to do (R281). -/
  | idle
  deriving DecidableEq, Repr

/-! ### The sequences the host sets out on by itself -/

/-- The master's template, steps 1 to 3: build the envelope, send it, await the reply (R222). A nibble that
the command does not have is sent as 0 (R191, R193). -/
def requestPlan (c : CmdId) (dest target flags : BitVec 16) (value : Word32) : List HostOp :=
  [.clear, .packCommand c, .addB0, .packB1 (requestTarget c target) (requestFlags c flags), .addB1] ++
    (if carriesFloat c then [.addFloat value] else []) ++
    [.packTo dest, .sendF (requestLen c), .packFrom dest, .awaitReply c]

/-- The slave's `listen()` (R233). -/
def listenPlan : List HostOp := [.packFrom 0, .awaitRequest]

/-- The slave's `pollOnce()`, up to the answer of `AVAILM` (R234). -/
def pollPlan : List HostOp := [.packFrom 0, .availRequest]

/-- Sending a broadcast datapoint (R239). -/
def broadcastPlan (stream channel : BitVec 16) (value : Word32) : List HostOp :=
  [.clear, .packB0 7 0, .addB0, .packB1 stream channel, .addB1, .addFloat value, .packTo (bcast.setWidth 16),
    .sendF 6]

/-- The host takes up its next act. -/
def hostAct (a : HostAct) (s : State) : Next :=
  match a with
  | .word cw => .run (.word cw) s
  | .request .broadcastDatapoint _ _ _ _ => .host (startPlan [.awaitBroadcast] s)
  | .request c d t g v => .host (startPlan (requestPlan c d t g v) s)
  | .listen => .host (startPlan listenPlan s)
  | .pollOnce => .host (startPlan pollPlan s)
  | .broadcast st ch v => .host (startPlan (broadcastPlan st ch v) s)

/-! ### What the host does with the response it waited for -/

/-- The wait ended without a frame: a master reports it, a slave returns without acting (R224, R226, R233,
R260). -/
def hostNoFrame (s : State) : State :=
  match s.role with
  | .request | .poll | .bringUp => s.stopWaiting
  | .reply .ping => s.finish (.alive false)
  | .reply _ | .broadcast => s.finish .noResponse

/-- The host reads the response it was waiting for: an error ends the sequence (R222, R256); the slave's poll
takes the frame or returns (R234); at bring-up the node is then up (R240); a frame is an encoded instruction;
no frame is a timeout. -/
def hostResponse (s : State) : Next :=
  if s.response.status ≠ .ok then .host (s.finish (.failed s.response.status))
  else if s.role = .poll then
    if s.res0 = 0 then .host s.stopWaiting else .host (startPlan [.takeRequest] { s with waiting := false })
  else if s.role = .bringUp then .host s.stopWaiting
  else if s.response.hit then .run (.payload s.response.frame.len s.response.frame.data) s
  else .host (hostNoFrame s)

/-- What the machine does next: reset first, then the operation in progress, then the response the host
waits for, then the next line of its sequence, then its next act (R28, R238, R280). -/
def fetch (s : State) : Next :=
  if s.link.hardReset then .reset
  else match s.op with
    | some k => .continue k
    | none =>
      if s.waiting then hostResponse s
      else match s.plan with
        | _ :: _ => .host (planStep s)
        | [] =>
          match s.script with
          | [] => .idle
          | a :: rest => hostAct a { s with script := rest }

/-- An encoding that is no instruction: an illegal command word raises `IllegalOp` (R92, R254); a frame
with an unassigned command id is dropped by a responder, and read like any other by a master or a listener,
which do not look at its id (R93, R205, R206). -/
def reject (c : Code) (s : State) : State :=
  match c with
  | .word _ => raise .illegalOp s
  | .payload len data => receive dropPlan len data s

end Sys2Proof.Machine
end

