-- ==== Sys2Proof/Machine/Step.lean ====
section
/-! DEFINITION. One step of the machine: the environment's move, then the block's or the host's (R14, R59,
R161), and the placing of an instruction where the next step fetches it. -/

namespace Sys2Proof.Machine

/-- One step. -/
def step (s : State) : Host.Outcome State Fault Refusal :=
  match fetch s.advance with
  | .reset => .next s.advance.hardReset
  | .continue k => .next (iterate k s.advance)
  | .run c t =>
    match decode c with
    | .ok i => exec i t
    | .error _ => .next (reject c t)
  | .host t => .next t
  | .idle => .next s.advance

/-- The state of a node that is up, with a command word as the host's next act, or with a frame just received
in the hand of a host that waits for it: a responder's, from address 0 to this node, or for a broadcast
datapoint a listener's. -/
def State.withCode (c : Code) (s : State) : State :=
  match c with
  | .word cw => { s with op := none, waiting := false, plan := [], script := .word cw :: s.script }
  | .payload len data =>
    if cmdOf data = cmdCode .broadcastDatapoint then
      { s with op := none, waiting := true, role := .broadcast, plan := []
               rsp := Response.found { id := broadcastPattern, len := len, data := data } :: s.rsp }
    else
      { s with op := none, waiting := true, role := .request, plan := []
               rsp := Response.found { id := packIdent s.selfOperand 0, len := len, data := data } :: s.rsp }

/-- The state in which the very next step fetches and runs the instruction of a word of the opcode table:
the environment does not assert reset at that step. -/
def State.withFetchWord (s : State) (nbits w : Nat) : State :=
  match tableCode nbits w with
  | none => s
  | some c => { s.withCode c with ticks := [] }

end Sys2Proof.Machine
end

