-- ==== Sys2Proof/Safety.lean ====
section
/-! DEFINITION. The terms the statements use: the invariant of R32, the frames of R33, the operand tables of
the typed operations, and what a stream of frames is. -/

namespace Sys2Proof.Machine

/-! ### The invariant -/

/-- What every reachable state satisfies (R32), with the facts about an operation in progress that R155(f),
R157 and R238 give. -/
structure State.Inv (s : State) : Prop where
  /-- The buffer is in canonical form. -/
  buffer : s.buf.wf = true
  /-- `0 <= CUR <= 8` (R22, R32). -/
  cursor : s.cur.toNat ≤ bufBytes
  /-- Every entry of `PQ` is canonical (R24, R32). -/
  queueCanonical : ∀ f ∈ s.pq, f.canonical = true
  /-- `|PQ| <= PQ_DEPTH` (R32, R151). -/
  queueBounded : ∀ d, s.params.pqDepth = some d → s.pq.length ≤ d
  /-- While a read is in progress no queued frame matches its filter (R155(f)). -/
  unmatched : s.op = some .readM ∨ s.op = some .readMT → anyMatch s.opId s.opMask s.pq = false
  /-- While `MRESET` is in progress the queue is empty (R157). -/
  flushing : s.op = some .mReset → s.pq = []
  /-- A waiting host has an operation in progress or a response to read (R238). -/
  awaited : s.waiting = true → s.op ≠ none ∨ s.rsp ≠ []
  /-- Every frame handed over carries its `LEN` bytes and no more (R174, R177). -/
  sentCanonical : ∀ f ∈ s.sent, f.canonical = true
  /-- An error response has every other field zero (R88). -/
  errorsBare : ∀ r ∈ s.rsp, r.status ≠ .ok → r = Response.error r.status

/-! ### Frames: what an operation leaves as it was -/

/-- The operation ended, and nothing but the buffer, the cursor and the response port changed: no codec
operation touches the matcher's state or the transport (R33). -/
def CodecFrame (s t : State) : Prop :=
  t = { s with buf := t.buf, cur := t.cur, rsp := t.rsp, op := none }

/-- Nothing but the queue, the deadline, the operation register, the response port, the transport's backlog
and the time changed: no matcher operation touches the buffer or the cursor (R33). -/
def MatcherFrame (s t : State) : Prop :=
  t = { s with pq := t.pq, dl := t.dl, opId := t.opId, opMask := t.opMask, op := t.op, rsp := t.rsp
               tq := t.tq, now := t.now }

/-- The environment's moves of the next `n` steps, and nothing else (R59, R264). -/
def State.advances : Nat → State → State
  | 0, s => s
  | n + 1, s => State.advances n s.advance

/-- The inputs that the step after `n` others sees (R176, R280). -/
def State.linkAt (s : State) (n : Nat) : Link :=
  match s.ticks[n]? with
  | some k => k.link
  | none => Link.quiet

/-- Hardware reset is not asserted in the next `n` steps (R280). -/
def NoReset (n : Nat) (s : State) : Prop := ∀ k ∈ s.ticks.take n, k.link.hardReset = false

/-- A host that was at work on a sequence for `n` steps and is idle again wrote the buffer, the cursor, the
response port, the frames sent and its own records. The environment made its `n` moves. Nothing else of the
matcher, the transport, the host's script, `SEQ` or the parameters changed. -/
def SequenceFrame (n : Nat) (s t : State) : Prop :=
  t = { s.advances n with
    buf := t.buf, cur := t.cur, rsp := t.rsp, op := none, sent := t.sent, plan := [], vars := t.vars
    waiting := false, handlerReturns := t.handlerReturns, calls := t.calls, results := t.results }

/-- The block, its port and the transport stand alike in both states (R20, R30). -/
def SameBlock (t u : State) : Prop :=
  u.buf = t.buf ∧ u.cur = t.cur ∧ u.pq = t.pq ∧ u.dl = t.dl ∧ u.opId = t.opId ∧ u.opMask = t.opMask ∧
    u.op = t.op ∧ u.rsp = t.rsp ∧ u.tq = t.tq ∧ u.sent = t.sent ∧ u.now = t.now

/-! ### Encodings -/

/-- Every command word with operation code `opc` is the instruction that `f` makes of the word: the
"Encoding" part of an operation's rule (R86, R89). -/
def Encodes (opc : Byte) (f : CommandWord → Instr) : Prop :=
  ∀ cw : CommandWord, cw.extractLsb' 72 8 = opc → decode (.word cw) = .ok (f cw)

/-- The 22 operation codes of R89. -/
def portOpcodes : List Nat :=
  [0x00, 0x01, 0x02, 0x03, 0x04, 0x05, 0x06, 0x07, 0x08, 0x09, 0x0A, 0x0B,
    0x10, 0x11, 0x12, 0x13, 0x20, 0x21, 0x22, 0x23, 0x24, 0x30]

/-! ### Typed values (R122 to R130, R135) -/

/-- The size and the value a typed append writes: the low bits of `V` it uses (R90, R122 to R125). -/
def appendOf : Instr → Option (Nat × Payload)
  | .addU8 v => some (1, BitVec.ofNat 64 (v.toNat % 2 ^ 8))
  | .addU16 v => some (2, BitVec.ofNat 64 (v.toNat % 2 ^ 16))
  | .addBool v => some (1, BitVec.ofNat 64 (v.toNat % 2))
  | .addFloat v => some (4, BitVec.ofNat 64 v.toNat)
  | _ => none

/-- How many bytes a typed read reads (R127 to R130). -/
def readSize : Instr → Option Nat
  | .getU8 => some 1
  | .getU16 => some 2
  | .getBool => some 1
  | .getFloat => some 4
  | _ => none

/-- A typed value of the codec. -/
inductive Typed where
  | u8 (v : BitVec 8)
  | u16 (v : BitVec 16)
  | bool (b : Bool)
  | float (pattern : BitVec 32)
  deriving DecidableEq, Repr

/-- How many bytes the value takes (R121). -/
def Typed.size : Typed → Nat
  | .u8 _ => 1
  | .u16 _ => 2
  | .bool _ => 1
  | .float _ => 4

/-- The append that writes the value. -/
def Typed.append : Typed → Instr
  | .u8 v => .addU8 (v.setWidth 32)
  | .u16 v => .addU16 (v.setWidth 32)
  | .bool b => .addBool (if b then 1 else 0)
  | .float p => .addFloat p

/-- The read of the value's type. -/
def Typed.read : Typed → Instr
  | .u8 _ => .getU8
  | .u16 _ => .getU16
  | .bool _ => .getBool
  | .float _ => .getFloat

/-- The value as a read returns it in `RES0`. -/
def Typed.result : Typed → Word32
  | .u8 v => v.setWidth 32
  | .u16 v => v.setWidth 32
  | .bool b => if b then 1 else 0
  | .float p => p

/-- The operations one after another, as a host issues them (R58). -/
def execAll : List Instr → State → Host.Outcome State Fault Refusal
  | [], s => .next s
  | i :: is, s =>
    match exec i s with
    | .next t => execAll is t
    | .fault r => .fault r
    | .refused r => .refused r

/-! ### Frames of the matcher -/

/-- No frame of the list matches the filter. -/
def NoneMatch (id mask : Ident) (q : List Frame) : Prop := ∀ f ∈ q, f.isMatch id mask = false

/-- The frames the matcher can still return, in the order it searches them: the queue, then the backlog as
the block takes it in (R60, R159). -/
def State.stream (s : State) : List Frame := s.pq ++ s.tq.map Frame.canon

/-- No call of the transport fails and hardware reset is not asserted. -/
def Link.calm (l : Link) : Prop :=
  l.readFails = false ∧ l.availFails = false ∧ l.writeFails = false ∧ l.flushFails = false ∧
    l.hardReset = false

/-- A call of the transport fails in an iteration that asks for availability before it reads: the question
itself, or the read of a frame that is there and has room (R151, R158, R176). -/
def State.askOrReadFails (s : State) : Prop :=
  s.link.availFails = true ∨ (s.tq ≠ [] ∧ s.queueFull = false ∧ s.link.readFails = true)

/-! ### Envelopes -/

/-- The envelope of a request as the responder's frame in hand carries it. -/
def envelope? : Instr → Option (CmdId × Envelope)
  | .eStop e => some (.eStop, e)
  | .calibrate e => some (.calibrate, e)
  | .setMotorPosition e => some (.setMotorPosition, e)
  | .setMotorSpeed e => some (.setMotorSpeed, e)
  | .toggleState e => some (.toggleState, e)
  | .getMotorPosition e => some (.getMotorPosition, e)
  | .getMotorSpeed e => some (.getMotorSpeed, e)
  | .broadcastDatapoint e => some (.broadcastDatapoint, e)
  | .requestDatapoint e => some (.requestDatapoint, e)
  | .ping e => some (.ping, e)
  | _ => none

/-- The reply frame: the identifier with roles swapped, byte0 and byte1 echoed, the float, length 6 (R192). -/
def replyFrame (requester self : BitVec 6) (c : CmdId) (e : Envelope) (q : Word32) : Frame where
  id := requester ++ self
  len := 6
  data := (0 : BitVec 16) ++ q ++ e.target ++ e.flags ++ cmdCode c ++ e.seq

/-- What a handler slot is given: the columns of R236. BroadcastDatapoint has no request and Ping no slot. -/
def handlerCallOf (c : CmdId) (e : Envelope) : Option HandlerCall :=
  match c with
  | .eStop => some { cmd := c, target := none, flags := none, value := none }
  | .calibrate | .getMotorPosition | .getMotorSpeed =>
    some { cmd := c, target := some e.target, flags := none, value := none }
  | .setMotorPosition | .setMotorSpeed =>
    some { cmd := c, target := some e.target, flags := none, value := some e.value }
  | .toggleState | .requestDatapoint =>
    some { cmd := c, target := some e.target, flags := some e.flags, value := none }
  | .broadcastDatapoint | .ping => none

/-- The float of a reply: zero for a command without a return value, the bytes 50 4F 4E 47 for Ping, else
what the handler returns, zero where it returns nothing (R192, R204, R236). -/
def replyValueOf (c : CmdId) (returns : List (Option Word32)) : Word32 :=
  match c with
  | .eStop | .calibrate | .toggleState | .broadcastDatapoint => 0
  | .ping => 0x474E4F50
  | .setMotorPosition | .setMotorSpeed | .getMotorPosition | .getMotorSpeed | .requestDatapoint =>
    match returns with
    | some v :: _ => v
    | _ => 0

/-- The command's request carries a float (R191). -/
def HasFloat (c : CmdId) : Prop := c = .setMotorPosition ∨ c = .setMotorSpeed

/-- How many lines a responder does after the first to serve a request of the command, `n`, the last of them
`SENDF` (R235). -/
def ServeLines (c : CmdId) (n : Nat) : Prop := (HasFloat c ∧ n = 14) ∨ (¬ HasFloat c ∧ n = 13)

/-- How many lines a master does up to its `SENDF` (R222). -/
def RequestLines (c : CmdId) (n : Nat) : Prop := (HasFloat c ∧ n = 8) ∨ (¬ HasFloat c ∧ n = 7)

/-! ### Host sequences -/

/-- The port operation that a line of a host sequence issues, by the listings of R222, R225, R233 to R235,
R239 and R240; none for an action of the host's own. -/
def HostOp.instr (s : State) : HostOp → Option Instr
  | .clear => some .clear
  | .putFrame => some (.putBuf (BitVec.ofNat 4 s.vars.f.len) s.vars.f.data)
  | .getB0 => some .getU8
  | .getB1 => some .getU8
  | .getFloat => some .getFloat
  | .unpackId => some (.unpack (s.vars.f.id.setWidth 32))
  | .unpackB0 => some (.unpackNib s.vars.b0)
  | .unpackB1 => some (.unpackNib s.vars.b1)
  | .packCommand c => some (.packNib ((cmdCode c).setWidth 16) (s.seq.setWidth 16))
  | .packB0 a b => some (.packNib a b)
  | .packB1 a b => some (.packNib a b)
  | .addB0 => some (.addU8 s.vars.b0)
  | .addB1 => some (.addU8 s.vars.b1)
  | .addFloat v => some (.addFloat v)
  | .addResult => some (.addFloat s.vars.q)
  | .packTo d => some (.pack d (s.params.self.setWidth 16))
  | .packFrom d => some (.pack (s.params.self.setWidth 16) d)
  | .packReply => some (.pack (s.vars.src.setWidth 16) (s.params.self.setWidth 16))
  | .sendF len => some (.sendF (s.vars.id.setWidth 12) len)
  | .awaitReply _ => some (.readMT s.params.tReply (s.vars.id.setWidth 12) 0xFFF)
  | .awaitRequest => some (.readMT s.params.tListen (s.vars.id.setWidth 12) 0xFC0)
  | .awaitBroadcast => some (.readM 0xFC0 0xFC0)
  | .availRequest => some (.availM (s.vars.id.setWidth 12) 0xFC0)
  | .takeRequest => some (.tryTake (s.vars.id.setWidth 12) 0xFC0)
  | .resetMatcher => some .mReset
  | .call _ => none
  | .pong => none
  | .report _ => none

/-- The lines whose response the host waits for, and the role in which it then reads it (R222, R225, R233, R234,
R238, R240). -/
def HostOp.awaits : HostOp → Option Role
  | .awaitReply c => some (.reply c)
  | .awaitRequest => some .request
  | .awaitBroadcast => some .broadcast
  | .availRequest => some .poll
  | .takeRequest => some .request
  | .resetMatcher => some .bringUp
  | _ => none

/-- The buffer holds the frame's payload, 0x00 beyond its length (R133, R222). -/
def HoldsBytes (f : Frame) (m : Memory) : Prop :=
  ∀ k, k < 8 → m.read k = if k < f.len.val then byteOf f.data k else 0

/-- The float of an envelope in the buffer: bytes 2 to 5, the least significant first (R84). -/
def floatIn (m : Memory) : Word32 := m.read 5 ++ m.read 4 ++ m.read 3 ++ m.read 2

/-- The host has in hand a frame whose command id, 0xA to 0xF, names no command (R205). -/
def HoldsUnassigned (s : State) : Prop :=
  s.response.status = .ok ∧ s.response.hit = true ∧ 10 ≤ s.response.frame.data.toNat % 256 / 16

/-! ### Steps -/

/-- The next step finds the block idle, the host idle with `a` to do, and no reset. -/
def Acts (a : HostAct) (rest : List HostAct) (s : State) : Prop :=
  s.op = none ∧ s.waiting = false ∧ s.plan = [] ∧ s.script = a :: rest ∧ s.advance.link.hardReset = false

/-- The next step finds the block idle, the host in a sequence of which `ops` remains, and no reset. -/
def Continues (ops : List HostOp) (s : State) : Prop :=
  s.op = none ∧ s.waiting = false ∧ s.plan = ops ∧ s.advance.link.hardReset = false

/-- The next step finds the block idle and the host reading the response it waits for, and no reset. -/
def Reads (s : State) : Prop :=
  s.op = none ∧ s.waiting = true ∧ s.advance.link.hardReset = false

end Sys2Proof.Machine
end

