-- ==== Sys2Proof/Certificates/Slice0/Obligations.lean ====
section
/-! DEFINITION. The statements for the provers. A statement's docstring names the rule of spec/ it formalises,
or says that it is the model's own. -/

open Sys2Proof Sys2Proof.Machine

/-! ### Command Codec -/

/-- R120: `CLEAR` zero-fills the buffer and puts the cursor at 0, and touches nothing else. -/
def Obligations.ClearZeroFillsBufferAndCursor : Prop :=
  Encodes 0x00 (fun _ => .clear) ∧
  ∀ s : State, ∃ t, exec .clear s = .next t ∧ (∀ a, t.buf.read a = 0) ∧ t.cur = 0 ∧
    t.rsp = Response.ok :: s.rsp ∧ CodecFrame s t

/-- R121 to R125: an append that fits writes its value's bytes at the cursor, the least significant first,
advances the cursor by the size and leaves every other byte alone; one that does not fit writes nothing,
keeps the cursor and raises `OutOfRange`. -/
def Obligations.AppendWritesValueAtCursor : Prop :=
  Encodes 0x01 (fun cw => .addU8 (cw.extractLsb' 0 32)) ∧
  Encodes 0x02 (fun cw => .addU16 (cw.extractLsb' 0 32)) ∧
  Encodes 0x03 (fun cw => .addBool (cw.extractLsb' 0 32)) ∧
  Encodes 0x04 (fun cw => .addFloat (cw.extractLsb' 0 32)) ∧
  ∀ (i : Instr) (n : Nat) (v : Payload) (s : State), appendOf i = some (n, v) → s.buf.wf = true →
    (s.cur.toNat + n ≤ bufBytes → ∃ t, exec i s = .next t ∧
      (∀ k, k < n → t.buf.read (s.cur.toNat + k) = byteOf v k) ∧
      (∀ a, a < s.cur.toNat ∨ s.cur.toNat + n ≤ a → t.buf.read a = s.buf.read a) ∧
      t.cur.toNat = s.cur.toNat + n ∧ t.rsp = Response.ok :: s.rsp ∧ CodecFrame s t) ∧
    (bufBytes < s.cur.toNat + n →
      exec i s = .next { s with rsp := Response.error .outOfRange :: s.rsp, op := none })

/-- R251: `OutOfRange` is raised by an append that would not fit and by `PUTBUF` and `SENDF` with a `LEN` of
9 to 15; nothing is recorded beyond the status, and no state changes. -/
def Obligations.OutOfRangeChangesNothing : Prop :=
  (∀ (i : Instr) (n : Nat) (v : Payload) (s : State), appendOf i = some (n, v) →
    bufBytes < s.cur.toNat + n →
    exec i s = .next { s with rsp := Response.error .outOfRange :: s.rsp, op := none }) ∧
  (∀ (len : BitVec 4) (data : Payload) (id : Ident) (s : State), 9 ≤ len.toNat →
    exec (.putBuf len data) s = .next { s with rsp := Response.error .outOfRange :: s.rsp, op := none } ∧
    exec (.sendF id len) s = .next { s with rsp := Response.error .outOfRange :: s.rsp, op := none })

/-- R126 to R130: a typed read of `n` bytes assembles the bytes from the cursor, 0x00 for those beyond
address 7, least significant first. `GETBOOL` answers 1 for a byte other than 0x00, the others the value,
zero-extended. The cursor advances and stops at 8; nothing else changes. -/
def Obligations.TypedReadReturnsBytesFromCursor : Prop :=
  Encodes 0x05 (fun _ => .getU8) ∧ Encodes 0x06 (fun _ => .getU16) ∧ Encodes 0x07 (fun _ => .getBool) ∧
  Encodes 0x08 (fun _ => .getFloat) ∧
  ∀ (i : Instr) (n : Nat) (s : State), readSize i = some n →
    ∃ (t : State) (v : Payload), exec i s = .next t ∧
      (∀ k, byteOf v k = if k < n ∧ s.cur.toNat + k ≤ 7 then s.buf.read (s.cur.toNat + k) else 0) ∧
      t.rsp = Response.values
        (if i = .getBool then (if v = 0 then 0 else 1) else v.setWidth 32) 0 :: s.rsp ∧
      t.cur.toNat = min (s.cur.toNat + n) 8 ∧ t.buf = s.buf ∧ CodecFrame s t

/-- R131: `GETLEN` answers 8 in every state and changes nothing. -/
def Obligations.GetLenAnswersEight : Prop :=
  Encodes 0x0A (fun _ => .getLen) ∧
  ∀ s : State, exec .getLen s = .next { s with rsp := Response.values 8 0 :: s.rsp, op := none }

/-- R132: `GETBUF` returns all eight bytes with identifier 0 and length 8, and changes nothing. -/
def Obligations.GetBufReturnsWholeBuffer : Prop :=
  Encodes 0x09 (fun _ => .getBuf) ∧
  ∀ s : State, ∃ f : Frame,
    exec .getBuf s = .next { s with rsp := { Response.ok with frame := f } :: s.rsp, op := none } ∧
    f.id = 0 ∧ f.len = 8 ∧ ∀ k, k < 8 → byteOf f.data k = s.buf.read k

/-- R133: `PUTBUF` writes the first `LEN` bytes and keeps the others and the cursor; a `LEN` of 9 to 15
raises `OutOfRange` with no byte written. -/
def Obligations.PutBufWritesFirstBytes : Prop :=
  Encodes 0x0B (fun cw => .putBuf (cw.extractLsb' 64 4) (cw.extractLsb' 0 64)) ∧
  ∀ (len : BitVec 4) (data : Payload) (s : State), s.buf.wf = true →
    (len.toNat ≤ 8 → ∃ t, exec (.putBuf len data) s = .next t ∧
      (∀ k, k < len.toNat → t.buf.read k = byteOf data k) ∧
      (∀ a, len.toNat ≤ a → t.buf.read a = s.buf.read a) ∧
      t.cur = s.cur ∧ t.rsp = Response.ok :: s.rsp ∧ CodecFrame s t) ∧
    (9 ≤ len.toNat → exec (.putBuf len data) s =
      .next { s with rsp := Response.error .outOfRange :: s.rsp, op := none })

/-- R22, R285: of the port operations only `CLEAR` lowers the cursor, and none takes it above 8. -/
def Obligations.OnlyClearLowersCursor : Prop :=
  ∀ (i : Instr) (s t : State), envelope? i = none → i ≠ .clear → s.cur.toNat ≤ 8 → exec i s = .next t →
    s.cur.toNat ≤ t.cur.toNat ∧ t.cur.toNat ≤ 8

/-- R135: for every list of typed values that fits the buffer, encoding them, taking the buffer out, loading
it again and reading the same types in the same order gives the values back. -/
def Obligations.TypedSequenceRoundTrip : Prop :=
  ∀ (vs : List Typed) (s : State), (vs.map Typed.size).sum ≤ 8 →
    ∃ t, execAll (.clear :: (vs.map Typed.append ++ [.getBuf])) s = .next t ∧
    ∃ u, execAll (.clear :: .putBuf 8 t.response.frame.data :: vs.map Typed.read) t = .next u ∧
      (u.rsp.take vs.length).reverse.map Response.res0 = vs.map Typed.result ∧
      u.cur.toNat = (vs.map Typed.size).sum

/-! ### Address Codec -/

/-- R140, R141: `PACK` and `UNPACK` by their formulas, the operands masked, no state changed. -/
def Obligations.PackAndUnpackMaskOperands : Prop :=
  Encodes 0x10 (fun cw => .pack (cw.extractLsb' 16 16) (cw.extractLsb' 0 16)) ∧
  Encodes 0x11 (fun cw => .unpack (cw.extractLsb' 0 32)) ∧
  ∀ (a b : BitVec 16) (v : Word32) (s : State),
    exec (.pack a b) s = .next { s with
      rsp := Response.values (BitVec.ofNat 32 (a.toNat % 64 * 64 + b.toNat % 64)) 0 :: s.rsp, op := none } ∧
    exec (.unpack v) s = .next { s with
      rsp := Response.values (BitVec.ofNat 32 (v.toNat / 64 % 64)) (BitVec.ofNat 32 (v.toNat % 64)) :: s.rsp
      op := none }

/-- R142, R143: `PACKNIB` and `UNPACKNIB` by their formulas, the operands masked, no state changed. -/
def Obligations.PackNibAndUnpackNibMaskOperands : Prop :=
  Encodes 0x12 (fun cw => .packNib (cw.extractLsb' 16 16) (cw.extractLsb' 0 16)) ∧
  Encodes 0x13 (fun cw => .unpackNib (cw.extractLsb' 0 32)) ∧
  ∀ (a b : BitVec 16) (v : Word32) (s : State),
    exec (.packNib a b) s = .next { s with
      rsp := Response.values (BitVec.ofNat 32 (a.toNat % 16 * 16 + b.toNat % 16)) 0 :: s.rsp, op := none } ∧
    exec (.unpackNib v) s = .next { s with
      rsp := Response.values (BitVec.ofNat 32 (v.toNat / 16 % 16)) (BitVec.ofNat 32 (v.toNat % 16)) :: s.rsp
      op := none }

/-- R144: the four laws of the address codec, each as two operations one after the other. -/
def Obligations.AddressCodecLaws : Prop :=
  (∀ (a b : BitVec 16) (s : State), ∃ t u, exec (.pack a b) s = .next t ∧
    exec (.unpack t.res0) t = .next u ∧ u.res0.toNat = a.toNat % 64 ∧ u.res1.toNat = b.toNat % 64) ∧
  (∀ (v : Word32) (s : State), ∃ t u, exec (.unpack v) s = .next t ∧
    exec (.pack (t.res0.setWidth 16) (t.res1.setWidth 16)) t = .next u ∧ u.res0.toNat = v.toNat % 4096) ∧
  (∀ (a b : BitVec 16) (s : State), ∃ t u, exec (.packNib a b) s = .next t ∧
    exec (.unpackNib t.res0) t = .next u ∧ u.res0.toNat = a.toNat % 16 ∧ u.res1.toNat = b.toNat % 16) ∧
  (∀ (v : Word32) (s : State), ∃ t u, exec (.unpackNib v) s = .next t ∧
    exec (.packNib (t.res0.setWidth 16) (t.res1.setWidth 16)) t = .next u ∧ u.res0.toNat = v.toNat % 256)

/-! ### Frame Matcher -/

/-- R152: `TRYTAKE` returns and removes the first queued frame that matches, the others kept in order;
without a match it answers `HIT = 0`, `F = NOFRAME`, and changes nothing. The transport is not called. -/
def Obligations.TryTakeRemovesFirstMatch : Prop :=
  Encodes 0x20 (fun cw => .tryTake (cw.extractLsb' 16 12) (cw.extractLsb' 0 12)) ∧
  (∀ (id mask : Ident) (l₁ l₂ : List Frame) (f : Frame) (s : State), s.pq = l₁ ++ f :: l₂ →
    NoneMatch id mask l₁ → f.id &&& mask = id &&& mask →
    exec (.tryTake id mask) s =
      .next { s with pq := l₁ ++ l₂, rsp := Response.found f :: s.rsp, op := none }) ∧
  (∀ (id mask : Ident) (s : State), NoneMatch id mask s.pq →
    exec (.tryTake id mask) s = .next { s with rsp := Response.ok :: s.rsp, op := none })

/-- R153, R154: a buffered match is returned at once; the transport is not called. -/
def Obligations.ReadReturnsBufferedMatchFirst : Prop :=
  ∀ (id mask : Ident) (time : Word32) (l₁ l₂ : List Frame) (f : Frame) (s : State), s.pq = l₁ ++ f :: l₂ →
    NoneMatch id mask l₁ → f.id &&& mask = id &&& mask →
    exec (.readM id mask) s = .next { s with
      pq := l₁ ++ l₂, opId := id, opMask := mask, rsp := Response.found f :: s.rsp, op := none } ∧
    exec (.readMT time id mask) s = .next { s with
      pq := l₁ ++ l₂, opId := id, opMask := mask, dl := s.now + time.toNat
      rsp := Response.found f :: s.rsp, op := none }

/-- R151, R153, R154: with no buffered match, room in the queue and a matching frame at the head of the
backlog, the read returns that frame, canonical, and it never enters the queue: in the iteration it is accepted
with and in any later one. -/
def Obligations.ReadReturnsMatchFromTransport : Prop :=
  (∀ (id mask : Ident) (time : Word32) (f : Frame) (q : List Frame) (s : State), NoneMatch id mask s.pq →
    s.queueFull = false → s.link.readFails = false → s.link.availFails = false → s.tq = f :: q →
    f.id &&& mask = id &&& mask →
    exec (.readM id mask) s = .next { s with
      tq := q, opId := id, opMask := mask, rsp := Response.found f.canon :: s.rsp, op := none } ∧
    exec (.readMT time id mask) s = .next { s with
      tq := q, opId := id, opMask := mask, dl := s.now + time.toNat
      rsp := Response.found f.canon :: s.rsp, op := none }) ∧
  (∀ (f : Frame) (q : List Frame) (s : State),
    s.queueFull = false → s.link.readFails = false → s.tq = f :: q →
    f.id &&& s.opMask = s.opId &&& s.opMask →
    (s.op = some .readM → iterate .readM s = { s with
      tq := q, rsp := Response.found f.canon :: s.rsp, op := none }) ∧
    (s.op = some .readMT → NoneMatch s.opId s.opMask s.pq → s.link.availFails = false →
      iterate .readMT s = { s with tq := q, rsp := Response.found f.canon :: s.rsp, op := none }))

/-- R153, R154, R155: a frame at the head of the backlog that does not match is queued, last; `READM` goes on;
`READMT` goes on or, the deadline passed, answers `NOFRAME`: in the iteration the read is accepted with and in
any later one. The time inside the iteration is the model's input `lag` (notes/assumptions/7.md). -/
def Obligations.ReadQueuesNonMatchingFrame : Prop :=
  (∀ (id mask : Ident) (time : Word32) (f : Frame) (q : List Frame) (s : State), NoneMatch id mask s.pq →
    s.queueFull = false → s.link.readFails = false → s.link.availFails = false → s.tq = f :: q →
    f.id &&& mask ≠ id &&& mask →
    exec (.readM id mask) s = .next { s with
      tq := q, pq := s.pq ++ [f.canon], opId := id, opMask := mask, op := some .readM } ∧
    (time.toNat ≤ s.link.lag → exec (.readMT time id mask) s = .next { s with
      tq := q, pq := s.pq ++ [f.canon], opId := id, opMask := mask, dl := s.now + time.toNat
      now := s.now + s.link.lag, rsp := Response.ok :: s.rsp, op := none }) ∧
    (s.link.lag < time.toNat → exec (.readMT time id mask) s = .next { s with
      tq := q, pq := s.pq ++ [f.canon], opId := id, opMask := mask, dl := s.now + time.toNat
      now := s.now + s.link.lag, op := some .readMT })) ∧
  (∀ (f : Frame) (q : List Frame) (s : State),
    s.queueFull = false → s.link.readFails = false → s.tq = f :: q →
    f.id &&& s.opMask ≠ s.opId &&& s.opMask →
    (s.op = some .readM → iterate .readM s = { s with tq := q, pq := s.pq ++ [f.canon] }) ∧
    (s.op = some .readMT → NoneMatch s.opId s.opMask s.pq → s.link.availFails = false →
      (s.dl ≤ s.now + s.link.lag → iterate .readMT s = { s with
        tq := q, pq := s.pq ++ [f.canon], now := s.now + s.link.lag, rsp := Response.ok :: s.rsp
        op := none }) ∧
      (s.now + s.link.lag < s.dl → iterate .readMT s = { s with
        tq := q, pq := s.pq ++ [f.canon], now := s.now + s.link.lag })))

/-- R154, R155: on a silent transport with no buffered match an iteration of `READMT`, the one it is accepted
with or a later one, answers `NOFRAME` when the fresh sample of `NOW` has reached the deadline, and else stays
in progress. The time inside the iteration is the model's input `lag` (notes/assumptions/7.md). -/
def Obligations.TimedReadOnSilentTransport : Prop :=
  (∀ (id mask : Ident) (time : Word32) (s : State), NoneMatch id mask s.pq → s.link.availFails = false →
    s.tq = [] →
    (time.toNat ≤ s.link.lag → exec (.readMT time id mask) s = .next { s with
      opId := id, opMask := mask, dl := s.now + time.toNat, now := s.now + s.link.lag
      rsp := Response.ok :: s.rsp, op := none }) ∧
    (s.link.lag < time.toNat → exec (.readMT time id mask) s = .next { s with
      opId := id, opMask := mask, dl := s.now + time.toNat, now := s.now + s.link.lag
      op := some .readMT })) ∧
  (∀ s : State, s.op = some .readMT → NoneMatch s.opId s.opMask s.pq → s.link.availFails = false →
    s.tq = [] →
    (s.dl ≤ s.now + s.link.lag → iterate .readMT s = { s with
      now := s.now + s.link.lag, rsp := Response.ok :: s.rsp, op := none }) ∧
    (s.now + s.link.lag < s.dl → iterate .readMT s = { s with now := s.now + s.link.lag }))

/-- R153, R161: while the transport has no frame `READM` has no step: it is accepted, and every later step
leaves the block as it is, still busy. That waiting is a step of the model that leaves the block alone is the
model's choice (notes/assumptions/6.md). -/
def Obligations.UntimedReadWaitsWhileTransportSilent : Prop :=
  ∀ (id mask : Ident) (s : State), NoneMatch id mask s.pq → s.queueFull = false →
    s.link.readFails = false → s.tq = [] →
    exec (.readM id mask) s = .next { s with opId := id, opMask := mask, op := some .readM } ∧
    (s.op = some .readM → s.advance.link.hardReset = false → s.advance.link.readFails = false →
      s.advance.tq = [] → step s = .next s.advance)

/-- R151, R257, R258: when a transport read is needed and the queue holds `PQ_DEPTH` frames the operation ends
with `QueueFull`, in the iteration it is accepted with and in any later one; the frame stays in the transport
and the queue keeps its content. That `READM` needs the read, and so raises it, on a silent transport too is the
model's choice (notes/assumptions/24.md). -/
def Obligations.FullQueueStopsBeforeTheRead : Prop :=
  (∀ (id mask : Ident) (time : Word32) (d : Nat) (s : State), NoneMatch id mask s.pq →
    s.params.pqDepth = some d → d ≤ s.pq.length →
    exec (.readM id mask) s = .next { s with
      opId := id, opMask := mask, rsp := Response.error .queueFull :: s.rsp, op := none } ∧
    (s.tq ≠ [] → s.link.availFails = false →
      exec (.readMT time id mask) s = .next { s with
        opId := id, opMask := mask, dl := s.now + time.toNat
        rsp := Response.error .queueFull :: s.rsp, op := none } ∧
      exec (.availM id mask) s = .next { s with
        opId := id, opMask := mask, rsp := Response.error .queueFull :: s.rsp, op := none })) ∧
  (∀ (d : Nat) (s : State), s.params.pqDepth = some d → d ≤ s.pq.length →
    (s.op = some .readM → iterate .readM s = { s with
      rsp := Response.error .queueFull :: s.rsp, op := none }) ∧
    (s.tq ≠ [] → s.link.availFails = false →
      (s.op = some .readMT → NoneMatch s.opId s.opMask s.pq → iterate .readMT s = { s with
        rsp := Response.error .queueFull :: s.rsp, op := none }) ∧
      (s.op = some .availM → iterate .availM s = { s with
        rsp := Response.error .queueFull :: s.rsp, op := none })))

/-- R158, R252: a failed transport call ends the operation with `TransportError`, in the iteration it is
accepted with and in any later one; the queue keeps what it holds, and buffer and cursor are untouched. The
backlog is as it was, or, after a failed flush, what the flush left of it; that is the model's reading
(notes/assumptions/14.md). -/
def Obligations.TransportFailureEndsOperation : Prop :=
  (∀ (id mask : Ident) (time : Word32) (s : State), NoneMatch id mask s.pq →
    (s.queueFull = false → s.link.readFails = true → exec (.readM id mask) s = .next { s with
      opId := id, opMask := mask, rsp := Response.error .transportError :: s.rsp, op := none }) ∧
    (s.askOrReadFails → exec (.readMT time id mask) s = .next { s with
      opId := id, opMask := mask, dl := s.now + time.toNat
      rsp := Response.error .transportError :: s.rsp, op := none }) ∧
    (s.askOrReadFails → exec (.availM id mask) s = .next { s with
      opId := id, opMask := mask, rsp := Response.error .transportError :: s.rsp, op := none })) ∧
  (∀ s : State,
    (s.queueFull = false → s.link.readFails = true → iterate .readM s = { s with
      rsp := Response.error .transportError :: s.rsp, op := none }) ∧
    (NoneMatch s.opId s.opMask s.pq → s.askOrReadFails → iterate .readMT s = { s with
      rsp := Response.error .transportError :: s.rsp, op := none }) ∧
    (s.askOrReadFails → iterate .availM s = { s with
      rsp := Response.error .transportError :: s.rsp, op := none })) ∧
  (∀ s : State,
    (s.params.offersFlush = false →
      s.link.availFails = true ∨ (s.tq ≠ [] ∧ s.link.readFails = true) →
      exec .mReset s = .next { s with
        pq := [], rsp := Response.error .transportError :: s.rsp, op := none } ∧
      iterate .mReset s = { s with rsp := Response.error .transportError :: s.rsp, op := none }) ∧
    (s.params.offersFlush = true → s.link.flushFails = true →
      exec .mReset s = .next { s with
        pq := [], tq := s.link.flushLeaves, rsp := Response.error .transportError :: s.rsp, op := none } ∧
      iterate .mReset s = { s with
        tq := s.link.flushLeaves, rsp := Response.error .transportError :: s.rsp, op := none })) ∧
  (∀ (id : Ident) (len : BitVec 4) (s : State), s.link.writeFails = true → len.toNat ≤ 8 →
    exec (.sendF id len) s = .next { s with rsp := Response.error .transportError :: s.rsp, op := none })

/-- R156: `AVAILM` answers 1 from the queue without touching the transport; with nothing buffered and the
transport empty it answers 0; a frame that is available is queued, whatever its identifier, and the drain
goes on. Once the transport is empty the drain ends with 1 exactly when some queued frame matches, else
with 0. -/
def Obligations.AvailabilityCheckDrainsTransport : Prop :=
  (∀ (id mask : Ident) (s : State),
    ((∃ f ∈ s.pq, f.id &&& mask = id &&& mask) → exec (.availM id mask) s = .next { s with
      opId := id, opMask := mask, rsp := Response.values 1 0 :: s.rsp, op := none }) ∧
    (NoneMatch id mask s.pq → s.link.availFails = false → s.tq = [] →
      exec (.availM id mask) s = .next { s with
        opId := id, opMask := mask, rsp := Response.values 0 0 :: s.rsp, op := none }) ∧
    (∀ f q, NoneMatch id mask s.pq → s.link.availFails = false → s.link.readFails = false →
      s.queueFull = false → s.tq = f :: q →
      exec (.availM id mask) s = .next { s with
        opId := id, opMask := mask, tq := q, pq := s.pq ++ [f.canon], op := some .availM })) ∧
  (∀ s : State, s.op = some .availM → s.link.availFails = false →
    (s.tq = [] → (∃ f ∈ s.pq, f.id &&& s.opMask = s.opId &&& s.opMask) →
      iterate .availM s = { s with rsp := Response.values 1 0 :: s.rsp, op := none }) ∧
    (s.tq = [] → NoneMatch s.opId s.opMask s.pq →
      iterate .availM s = { s with rsp := Response.values 0 0 :: s.rsp, op := none }) ∧
    (∀ f q, s.link.readFails = false → s.queueFull = false → s.tq = f :: q →
      iterate .availM s = { s with tq := q, pq := s.pq ++ [f.canon] }))

/-- R157: `MRESET` drops the queue; it then uses the transport's flush where there is one, else discards one
frame a step until none is available. Buffer and cursor are untouched. -/
def Obligations.MatcherResetDropsQueueAndBacklog : Prop :=
  ∀ s : State,
    (s.params.offersFlush = true → s.link.flushFails = false →
      exec .mReset s = .next { s with pq := [], tq := [], rsp := Response.ok :: s.rsp, op := none }) ∧
    (s.params.offersFlush = false → s.link.availFails = false → s.tq = [] →
      exec .mReset s = .next { s with pq := [], rsp := Response.ok :: s.rsp, op := none }) ∧
    (∀ f q, s.params.offersFlush = false → s.link.availFails = false → s.link.readFails = false →
      s.tq = f :: q → exec .mReset s = .next { s with pq := [], tq := q, op := some .mReset })

/-- R157: once `MRESET` is in progress on a transport without flush, and nothing more arrives or fails, it
ends with the backlog empty after as many further steps as there are frames, and one to see that there are
none. -/
def Obligations.MatcherResetRunsToEmptyBacklog : Prop :=
  ∀ s : State, s.op = some .mReset → s.pq = [] → s.params.offersFlush = false →
    (∀ k ∈ s.ticks.take (s.tq.length + 1), k.arrivals = [] ∧ k.link.calm) →
    ∃ t, Host.Core.run core (s.tq.length + 1) s = .next t ∧ t.op = none ∧ t.pq = [] ∧ t.tq = [] ∧
      t.rsp = Response.ok :: s.rsp ∧ t.buf = s.buf ∧ t.cur = s.cur

/-- R159, R160: a `READM` in progress with an unbounded queue, run to its end. With the frames before the
first match in the backlog non-matching and no call failing, the read returns the first match after one step for
each frame; the earlier frames stand in the queue in arrival order; the later ones, and whatever arrived
meanwhile, are still in the transport. -/
def Obligations.UntimedReadReturnsEarliestMatch : Prop :=
  ∀ (before after : List Frame) (f : Frame) (s : State), s.op = some .readM → s.params.pqDepth = none →
    s.tq = before ++ f :: after → NoneMatch s.opId s.opMask before →
    f.id &&& s.opMask = s.opId &&& s.opMask → (∀ k ∈ s.ticks.take (before.length + 1), k.link.calm) →
    ∃ t, Host.Core.run core (before.length + 1) s = .next t ∧ t.op = none ∧
      t.rsp = Response.found f.canon :: s.rsp ∧ t.pq = s.pq ++ before.map Frame.canon ∧
      t.tq = after ++ (s.ticks.take (before.length + 1)).flatMap Tick.arrivals ∧
      t.buf = s.buf ∧ t.cur = s.cur

/-- R60, R159, R255: an iteration of a read or of the drain loses and duplicates no frame. Either it returns
the earliest match of the queue followed by the backlog and keeps every other frame in order, or the queue
followed by the backlog is what it was. -/
def Obligations.ReadsLoseAndReorderNoFrame : Prop :=
  ∀ (k : MatcherOp) (s : State), k ≠ .mReset → s.op = some k → s.Inv →
    (iterate k s).stream = s.stream ∧ (∀ r ∈ (iterate k s).rsp.take ((iterate k s).rsp.length - s.rsp.length),
      r.hit = false) ∨
    ∃ l₁ f l₂, s.stream = l₁ ++ f :: l₂ ∧ NoneMatch s.opId s.opMask l₁ ∧
      f.id &&& s.opMask = s.opId &&& s.opMask ∧ (iterate k s).stream = l₁ ++ l₂ ∧
      (iterate k s).rsp = Response.found f :: s.rsp

/-- R155(c): a timed read in progress never answers `NOFRAME` before its deadline, and its first iteration
that samples `NOW` at or after the deadline ends it, with whatever response. The time inside the iteration is
the model's input `lag` (notes/assumptions/7.md). -/
def Obligations.TimedReadAnswersOnlyAfterDeadline : Prop :=
  ∀ s : State, s.op = some .readMT →
    ((iterReadMT s).rsp = Response.ok :: s.rsp → s.dl ≤ (iterReadMT s).now) ∧
    (s.dl ≤ s.now + s.link.lag → (iterReadMT s).op = none)

/-! ### Transport -/

/-- R177: `SENDF` hands the transport one frame with its `ID`, its `LEN` and the first `LEN` bytes of the
buffer, and changes nothing of the block; a `LEN` of 9 to 15 raises `OutOfRange` before the transport is
called, and a failed write raises `TransportError`. That the backlog and the list of frames sent are then as
they were is the model's reading (notes/assumptions/14.md). -/
def Obligations.SendHandsOverBufferBytes : Prop :=
  Encodes 0x30 (fun cw => .sendF (cw.extractLsb' 16 12) (cw.extractLsb' 0 4)) ∧
  ∀ (id : Ident) (len : BitVec 4) (s : State),
    (len.toNat ≤ 8 → s.link.writeFails = false →
      ∃ f : Frame, exec (.sendF id len) s =
          .next { s with sent := s.sent ++ [f], rsp := Response.ok :: s.rsp, op := none } ∧
        f.id = id ∧ f.len.val = len.toNat ∧
        ∀ k, k < 8 → byteOf f.data k = if k < len.toNat then s.buf.read k else 0) ∧
    (len.toNat ≤ 8 → s.link.writeFails = true → exec (.sendF id len) s =
      .next { s with rsp := Response.error .transportError :: s.rsp, op := none }) ∧
    (9 ≤ len.toNat → exec (.sendF id len) s =
      .next { s with rsp := Response.error .outOfRange :: s.rsp, op := none })

/-! ### Separation, invariants, totality -/

/-- R33: no codec or address operation touches the matcher's state or the transport, and no matcher
operation touches the buffer or the cursor, in any state, as it is accepted or in any later iteration. -/
def Obligations.CodecAndMatcherStateAreDisjoint : Prop :=
  ∀ (s t : State),
    (∀ i ∈ [Instr.clear, .getU8, .getU16, .getBool, .getFloat, .getBuf, .getLen], exec i s = .next t →
      CodecFrame s t) ∧
    (∀ v, (exec (.addU8 v) s = .next t ∨ exec (.addU16 v) s = .next t ∨ exec (.addBool v) s = .next t ∨
      exec (.addFloat v) s = .next t ∨ exec (.unpack v) s = .next t ∨ exec (.unpackNib v) s = .next t) →
      CodecFrame s t) ∧
    (∀ a b, (exec (.pack a b) s = .next t ∨ exec (.packNib a b) s = .next t) → CodecFrame s t) ∧
    (∀ len data, exec (.putBuf len data) s = .next t → CodecFrame s t) ∧
    (∀ id mask time, (exec (.tryTake id mask) s = .next t ∨ exec (.readM id mask) s = .next t ∨
      exec (.readMT time id mask) s = .next t ∨ exec (.availM id mask) s = .next t ∨
      exec .mReset s = .next t) → MatcherFrame s t) ∧
    (∀ k, s.op = some k → MatcherFrame s (iterate k s))

/-- The invariant holds after reset (R32, R35). -/
def Obligations.ResetSatisfiesInvariant : Prop := State.reset.Inv

/-- Every step keeps the invariant, from every state that has it, reached or not (R32). -/
def Obligations.StepKeepsInvariant : Prop :=
  ∀ s t : State, s.Inv → step s = .next t → t.Inv

/-- The machine never stops: every error is a status in a response (R250, R255, R256), so a step answers a
next state, from every state. That the model has no fault is notes/assumptions/12.md. Of a `READM` on a
silent transport R153 and R161 say that it has no step and the block is stuck: that such waiting is an idle
step is the model's choice (notes/assumptions/6.md). -/
def Obligations.EveryStepAnswersNext : Prop := ∀ s : State, ∃ t, step s = .next t

/-- R28: an operation ends with exactly one response, or is still in progress with none: for every port
operation as it is accepted, and for every further iteration. The list of responses is the model's own
(notes/assumptions/11.md). -/
def Obligations.OneResponsePerOperation : Prop :=
  (∀ (i : Instr) (s t : State), envelope? i = none → exec i s = .next t →
    (t.op = none ∧ ∃ r, t.rsp = r :: s.rsp) ∨ (t.op ≠ none ∧ t.rsp = s.rsp)) ∧
  (∀ (k : MatcherOp) (s : State), s.op = some k →
    ((iterate k s).op = none ∧ ∃ r, (iterate k s).rsp = r :: s.rsp) ∨
    ((iterate k s).op = some k ∧ (iterate k s).rsp = s.rsp))

/-- R28: while an operation is in progress no command word is accepted and the host does nothing: a step is
the operation's next iteration. What the host is in the middle of is the model's own state
(notes/assumptions/4.md). -/
def Obligations.BusyBlockAcceptsNoCommand : Prop :=
  ∀ (k : MatcherOp) (s t : State), s.op = some k → s.advance.link.hardReset = false → step s = .next t →
    t = iterate k s.advance ∧ t.script = s.script ∧ t.waiting = s.waiting ∧ t.seq = s.seq ∧
    t.plan = s.plan ∧ t.vars = s.vars ∧ t.results = s.results ∧ t.sent = s.sent

/-- R7, R29, R264: no step changes a parameter, and `NOW` never decreases. That the parameters stand in the
state is the model's choice (notes/assumptions/3.md). -/
def Obligations.ParametersFixedAndTimeMonotone : Prop :=
  ∀ s t : State, step s = .next t → t.params = s.params ∧ s.now ≤ t.now

/-! ### Reset -/

/-- R34, R35: the values the spec gives for reset: cursor 0, queue empty, every byte 0x00, not busy. -/
def Obligations.ResetValues : Prop :=
  State.reset.cur = 0 ∧ State.reset.pq = [] ∧ (∀ a, State.reset.buf.read a = 0) ∧ State.reset.op = none

/-- R280: hardware reset puts the block at its reset values whatever was in progress, without a response, and
does not touch the transport. That reset is an input of a step is the model's choice
(notes/assumptions/10.md). -/
def Obligations.HardwareResetAbandonsOperation : Prop :=
  ∀ s : State, s.advance.link.hardReset = true → ∃ t, step s = .next t ∧
    t.cur = 0 ∧ t.pq = [] ∧ (∀ a, t.buf.read a = 0) ∧ t.op = none ∧ t.rsp = s.rsp ∧
    t.tq = s.advance.tq ∧ t.sent = s.sent

/-- R240, R267, R282, R283: a restart resets the host's counter and forgets the exchange: nothing of the
sequence under way is left to do or awaited, and what the host does next is bring the node up, as after reset,
before any act of its script. Bring-up is one `MRESET` whose end the host waits for; when it has read the
response `OK` the host is idle and the node is up, and an error is the result of the bring-up. Left alone it
takes two steps where the transport offers flush, else two and one more for each frame of the backlog, and
leaves queue and backlog empty with nothing sent and no act begun. That the host is a list of acts, goes on
with it after a restart, its records and inputs kept, and that bring-up is the first thing it does is the
model's choice (notes/assumptions/10.md, 23.md). -/
def Obligations.RestartBringsNodeUpAnew : Prop :=
  (∀ s : State, s.advance.link.hardReset = true → ∃ t, step s = .next t ∧
    t.seq = 0 ∧ t.plan = [.resetMatcher] ∧ t.waiting = false ∧ t.script = s.script ∧ t.results = s.results ∧
    t.calls = s.calls ∧ t.handlerReturns = s.handlerReturns ∧ t.params = s.params ∧ t.now = s.advance.now) ∧
  State.reset.plan = [.resetMatcher] ∧
  (∀ s : State, Continues [.resetMatcher] s → ∃ t, exec .mReset { s.advance with plan := [] } = .next t ∧
    step s = .next { t with waiting := true, role := .bringUp }) ∧
  (∀ s : State, Reads s → s.role = .bringUp →
    (s.response.status = .ok → step s = .next { s.advance with waiting := false, plan := [] }) ∧
    (s.response.status ≠ .ok → step s = .next { s.advance with
      results := s.results ++ [.failed s.response.status], waiting := false, plan := [] })) ∧
  (∀ (n : Nat) (s : State), Continues [.resetMatcher] s →
    (s.params.offersFlush = true ∧ n = 2) ∨ (s.params.offersFlush = false ∧ n = s.tq.length + 2) →
    (∀ k ∈ s.ticks.take n, k.arrivals = [] ∧ k.link.calm) →
    ∃ t, Host.Core.run core n s = .next t ∧ t.op = none ∧ t.waiting = false ∧ t.plan = [] ∧
      t.pq = [] ∧ t.tq = [] ∧ t.rsp = Response.ok :: s.rsp ∧ t.script = s.script ∧ t.seq = s.seq ∧
      t.sent = s.sent ∧ t.results = s.results ∧ t.buf = s.buf ∧ t.cur = s.cur)

/-! ### Encoding and fetching -/

/-- R89, R91: every well-formed instruction, with every operand at every value its encoding admits, is
decoded from its own encoding. -/
def Obligations.DecodeOfEncodeIsTheInstruction : Prop :=
  ∀ i : Instr, WellFormed i = true → decode (encode i) = .ok i

/-- R86, R87, R89, R92: a command word is an instruction exactly when its `OPC` is one of the 22 codes; and
each code's instruction is made of the bits that its format names alone, so that the others have no effect. -/
def Obligations.CommandWordDecodesByOpcode : Prop :=
  (∀ cw : CommandWord, (∃ i, decode (.word cw) = .ok i) ↔ cw.toNat / 2 ^ 72 ∈ portOpcodes) ∧
  Encodes 0x00 (fun _ => .clear) ∧
  Encodes 0x01 (fun cw => .addU8 (cw.extractLsb' 0 32)) ∧
  Encodes 0x02 (fun cw => .addU16 (cw.extractLsb' 0 32)) ∧
  Encodes 0x03 (fun cw => .addBool (cw.extractLsb' 0 32)) ∧
  Encodes 0x04 (fun cw => .addFloat (cw.extractLsb' 0 32)) ∧
  Encodes 0x05 (fun _ => .getU8) ∧ Encodes 0x06 (fun _ => .getU16) ∧ Encodes 0x07 (fun _ => .getBool) ∧
  Encodes 0x08 (fun _ => .getFloat) ∧ Encodes 0x09 (fun _ => .getBuf) ∧ Encodes 0x0A (fun _ => .getLen) ∧
  Encodes 0x0B (fun cw => .putBuf (cw.extractLsb' 64 4) (cw.extractLsb' 0 64)) ∧
  Encodes 0x10 (fun cw => .pack (cw.extractLsb' 16 16) (cw.extractLsb' 0 16)) ∧
  Encodes 0x11 (fun cw => .unpack (cw.extractLsb' 0 32)) ∧
  Encodes 0x12 (fun cw => .packNib (cw.extractLsb' 16 16) (cw.extractLsb' 0 16)) ∧
  Encodes 0x13 (fun cw => .unpackNib (cw.extractLsb' 0 32)) ∧
  Encodes 0x20 (fun cw => .tryTake (cw.extractLsb' 16 12) (cw.extractLsb' 0 12)) ∧
  Encodes 0x21 (fun cw => .readM (cw.extractLsb' 16 12) (cw.extractLsb' 0 12)) ∧
  Encodes 0x22 (fun cw => .readMT (cw.extractLsb' 32 32) (cw.extractLsb' 16 12) (cw.extractLsb' 0 12)) ∧
  Encodes 0x23 (fun cw => .availM (cw.extractLsb' 16 12) (cw.extractLsb' 0 12)) ∧
  Encodes 0x24 (fun _ => .mReset) ∧
  Encodes 0x30 (fun cw => .sendF (cw.extractLsb' 16 12) (cw.extractLsb' 0 4))

/-- R83, R88, R250: the fields of every response word: `STATUS` with its code, `HIT`, three zero bits, `RES0`,
`RES1`, and the record of the frame: identifier, length, and byte `k` of DATA at bits `8k+7:8k`. `NOFRAME`'s
record is zero. -/
def Obligations.ResponseWordLayout : Prop :=
  (∀ r : Response,
    r.word.extractLsb' 148 4 = (match r.status with
      | .ok => 0 | .outOfRange => 1 | .transportError => 2 | .queueFull => 3 | .illegalOp => 4) ∧
    r.word.getLsbD 147 = r.hit ∧ r.word.extractLsb' 144 3 = 0 ∧
    r.word.extractLsb' 112 32 = r.res0 ∧ r.word.extractLsb' 80 32 = r.res1 ∧
    r.word.extractLsb' 68 12 = r.frame.id ∧ (r.word.extractLsb' 64 4).toNat = r.frame.len.val ∧
    ∀ k, k < 8 → r.word.extractLsb' (8 * k) 8 = byteOf r.frame.data k) ∧
  noFrame.record = 0

/-- R91, R93, R205: a payload is a wire command exactly when the high nibble of byte0 is 0x0 to 0x9; and a
canonical payload's command is well-formed and encodes to that payload. -/
def Obligations.PayloadDecodesByCommandId : Prop :=
  (∀ (len : Fin 9) (data : Payload), (∃ i, decode (.payload len data) = .ok i) ↔
    data.toNat % 256 / 16 ≤ 9) ∧
  (∀ (len : Fin 9) (data : Payload) (i : Instr), decode (.payload len data) = .ok i →
    encode i = .payload len data ∧ (WellFormed i = true ↔ maskBytes len data = data))

/-- R87, R89: words written out from the spec's tables and examples decode to the instructions they stand
for, one of each format and of the wire side. -/
def Obligations.SampleWordsDecode : Prop :=
  decode (.word 0x00000000000000000000) = .ok .clear ∧
  decode (.word 0x0200000000000000BEEF) = .ok (.addU16 0xBEEF) ∧
  decode (.word 0x0B0600003FC000002025) = .ok (.putBuf 6 0x3FC000002025) ∧
  decode (.word 0x100000ABCDEF00050001) = .ok (.pack 5 1) ∧
  decode (.word 0x22000000006400450FFF) = .ok (.readMT 100 0x045 0xFFF) ∧
  decode (.word 0x30000000000001410006) = .ok (.sendF 0x141 6) ∧
  decode (.payload 6 0x3FC000002025) = .ok (.setMotorPosition
    { len := 6, seq := 5, target := 2, flags := 0, value := 0x3FC00000, tail := 0 })

/-- R27, R28: a step from an idle block with a command word to issue that decodes to `i` is `exec` of `i`,
with the environment's move made and the word taken from the host's script. -/
def Obligations.StepRunsIssuedWord : Prop :=
  ∀ (cw : CommandWord) (rest : List HostAct) (i : Instr) (s : State), Acts (.word cw) rest s →
    decode (.word cw) = .ok i → step s = exec i { s.advance with script := rest }

/-- R235, R238: a step in which a waiting host finds a frame in the response it waited for, whose payload
decodes to `i`, is `exec` of `i`, with the environment's move made. That the host's part is modelled is the
model's choice (notes/assumptions/4.md). -/
def Obligations.StepRunsReceivedEnvelope : Prop :=
  ∀ (i : Instr) (s : State), Reads s → s.role ≠ .poll → s.role ≠ .bringUp →
    s.response.status = .ok → s.response.hit = true →
    decode (.payload s.response.frame.len s.response.frame.data) = .ok i → step s = exec i s.advance

/-- R254: a command word whose `OPC` is not one of the 22 codes raises `IllegalOp`, and no state changes. -/
def Obligations.UnassignedOpcodeIsIllegalOp : Prop :=
  ∀ (cw : CommandWord) (rest : List HostAct) (s : State), Acts (.word cw) rest s →
    cw.toNat / 2 ^ 72 ∉ portOpcodes →
    step s = .next { s.advance with
      script := rest, rsp := Response.error .illegalOp :: s.rsp, op := none }

/-! ### Wire commands at a responder -/

/-- R192, R195, R196, R199, R235, R236: EStop, Calibrate and ToggleState are answered with byte0 and byte1
echoed and a zero float, on the identifier with roles swapped, after one call of the command's handler. That
the host's part is modelled, a line a step, is the model's choice (notes/assumptions/4.md, 5.md), and so is
that the call uses up an entry of `handlerReturns` (notes/assumptions/8.md). -/
def Obligations.ControlRequestAnsweredWithZeroFloat : Prop :=
  ∀ (i : Instr) (c : CmdId) (e : Envelope) (s : State), envelope? i = some (c, e) →
    c ∈ [CmdId.eStop, .calibrate, .toggleState] → WellFormed i = true → s.role = .request →
    NoReset 13 s → (s.linkAt 12).writeFails = false →
    ∃ t u h, exec i s = .next t ∧ Host.Core.run core 13 t = .next u ∧ handlerCallOf c e = some h ∧
      u.sent = s.sent ++ [replyFrame (sourceOf s.response.frame.id) s.params.self c e 0] ∧
      u.calls = s.calls ++ [h] ∧ u.handlerReturns = s.handlerReturns.tail ∧ u.results = s.results ∧
      (∀ k, k < 8 → u.buf.read k =
        byteOf (replyFrame (sourceOf s.response.frame.id) s.params.self c e 0).data k) ∧
      u.cur = 6 ∧ SequenceFrame 13 s u

/-- R192, R197, R198, R200, R201, R203, R235, R236: the position, speed and datapoint requests are answered
with the header echoed and the handler's value, or zero where it returns none. What a handler returns, and
that a call uses up an entry, is the model's choice (notes/assumptions/8.md). That the host's part is
modelled, a line a step, is the model's choice too (notes/assumptions/4.md, 5.md). -/
def Obligations.ValueRequestAnsweredWithHandlerValue : Prop :=
  ∀ (i : Instr) (c : CmdId) (e : Envelope) (n : Nat) (s : State), envelope? i = some (c, e) →
    c ∈ [CmdId.setMotorPosition, .setMotorSpeed, .getMotorPosition, .getMotorSpeed, .requestDatapoint] →
    WellFormed i = true → s.role = .request → ServeLines c n → NoReset n s →
    (s.linkAt (n - 1)).writeFails = false →
    ∃ t u h q, exec i s = .next t ∧ Host.Core.run core n t = .next u ∧ handlerCallOf c e = some h ∧
      q = (match s.handlerReturns.head? with | some (some v) => v | _ => 0) ∧
      u.sent = s.sent ++ [replyFrame (sourceOf s.response.frame.id) s.params.self c e q] ∧
      u.calls = s.calls ++ [h] ∧ u.handlerReturns = s.handlerReturns.tail ∧ u.results = s.results ∧
      (∀ k, k < 8 → u.buf.read k =
        byteOf (replyFrame (sourceOf s.response.frame.id) s.params.self c e q).data k) ∧
      u.cur = 6 ∧ SequenceFrame n s u

/-- R204, R235: Ping is answered without a handler, with the bytes 50 4F 4E 47 in the float slot. That the
host's part is modelled, a line a step, is the model's choice (notes/assumptions/4.md, 5.md). -/
def Obligations.PingAnsweredWithPong : Prop :=
  ∀ (e : Envelope) (s : State), WellFormed (.ping e) = true → s.role = .request →
    NoReset 13 s → (s.linkAt 12).writeFails = false →
    ∃ t u, exec (.ping e) s = .next t ∧ Host.Core.run core 13 t = .next u ∧
      u.sent = s.sent ++ [replyFrame (sourceOf s.response.frame.id) s.params.self .ping e 0x474E4F50] ∧
      u.calls = s.calls ∧ u.handlerReturns = s.handlerReturns ∧ u.results = s.results ∧
      u.buf.read 2 = 0x50 ∧ u.buf.read 3 = 0x4F ∧ u.buf.read 4 = 0x4E ∧ u.buf.read 5 = 0x47 ∧
      u.cur = 6 ∧ SequenceFrame 13 s u

/-- R205, R235, R237: a request with command id 0x7 or 0xA to 0xF is consumed by a responder: nothing is
sent, no handler is called, no result is reported. That its frame stands in the buffer then is the model's
reading (notes/assumptions/21.md). That the host's part is modelled, a line a step, is the model's choice
(notes/assumptions/4.md, 5.md). -/
def Obligations.RequestWithoutHandlerIsDropped : Prop :=
  (∀ (e : Envelope) (s : State), WellFormed (.broadcastDatapoint e) = true → s.role = .request →
    NoReset 6 s →
    ∃ t u, exec (.broadcastDatapoint e) s = .next t ∧ Host.Core.run core 6 t = .next u ∧
      u.sent = s.sent ∧ u.calls = s.calls ∧ u.results = s.results ∧ u.handlerReturns = s.handlerReturns ∧
      (∀ k, k < 8 → u.buf.read k = byteOf (envelopeData 0x7 e) k) ∧ u.cur = 2 ∧ SequenceFrame 6 s u) ∧
  (∀ s : State, Reads s → s.role = .request → s.response.status = .ok → s.response.hit = true →
    10 ≤ s.response.frame.data.toNat % 256 / 16 → NoReset 7 s →
    ∃ u, Host.Core.run core 7 s = .next u ∧
      u.sent = s.sent ∧ u.calls = s.calls ∧ u.results = s.results ∧ u.handlerReturns = s.handlerReturns ∧
      (∀ k, k < 8 → u.buf.read k =
        if k < s.response.frame.len.val then byteOf s.response.frame.data k else 0) ∧
      u.cur = 2 ∧ SequenceFrame 7 s u)

/-- R176, R222, R256: a responder whose reply cannot be written ends the sequence with `TransportError` as its
result, whatever command it serves: the handler has been called, and the buffer keeps the reply. That no frame
is then listed as sent is the model's reading (notes/assumptions/14.md). That the host's part is modelled, a
line a step, is the model's choice (notes/assumptions/4.md, 5.md), and so is that a call uses up an entry of
`handlerReturns` (notes/assumptions/8.md). -/
def Obligations.FailedReplyEndsWithTransportError : Prop :=
  ∀ (i : Instr) (c : CmdId) (e : Envelope) (n : Nat) (s : State), envelope? i = some (c, e) →
    c ≠ .broadcastDatapoint → WellFormed i = true → s.role = .request → ServeLines c n → NoReset n s →
    (s.linkAt (n - 1)).writeFails = true →
    ∃ t u, exec i s = .next t ∧ Host.Core.run core n t = .next u ∧
      u.response = Response.error .transportError ∧ u.sent = s.sent ∧
      u.results = s.results ++ [.failed .transportError] ∧
      u.calls = s.calls ++ (handlerCallOf c e).toList ∧
      u.handlerReturns = (if c = .ping then s.handlerReturns else s.handlerReturns.tail) ∧
      (∀ k, k < 8 → u.buf.read k = byteOf (replyFrame (sourceOf s.response.frame.id) s.params.self c e
        (replyValueOf c s.handlerReturns)).data k) ∧
      u.cur = 6 ∧ SequenceFrame n s u

/-! ### Wire commands at a master or a listener -/

/-- R202, R206, R225: a listener decodes the frame its filter returned into stream, channel and float, whatever
the frame's command id: a broadcast datapoint, any other wire command, or an id that names none. That the id is
not looked at is notes/assumptions/21.md. That the host's part is modelled, a line a step, is the model's choice
(notes/assumptions/4.md, 5.md). -/
def Obligations.BroadcastDecodedByListener : Prop :=
  (∀ (i : Instr) (c : CmdId) (e : Envelope) (s : State), envelope? i = some (c, e) →
    WellFormed i = true → s.role = .broadcast → NoReset 6 s →
    ∃ t u, exec i s = .next t ∧ Host.Core.run core 6 t = .next u ∧
      u.results = s.results ++ [.datapoint e.target e.flags e.value] ∧ u.sent = s.sent ∧
      u.calls = s.calls ∧ u.handlerReturns = s.handlerReturns ∧
      (∀ k, k < 8 → u.buf.read k = byteOf (envelopeData (cmdCode c) e) k) ∧ u.cur = 6 ∧
      SequenceFrame 6 s u) ∧
  (∀ s : State, Reads s → s.role = .broadcast → HoldsUnassigned s → NoReset 7 s →
    ∃ u, Host.Core.run core 7 s = .next u ∧
      u.results = s.results ++ [.datapoint ((u.buf.read 1).extractLsb' 4 4)
        ((u.buf.read 1).extractLsb' 0 4)
        (floatIn u.buf)] ∧ u.sent = s.sent ∧
      u.calls = s.calls ∧ u.handlerReturns = s.handlerReturns ∧ HoldsBytes s.response.frame u.buf ∧
      u.cur = 6 ∧ SequenceFrame 7 s u)

/-- R193, R206, R221, R226: a master reads a reply by the command it sent and not by the reply's own id:
`error_flag` is bit 3 and `uncalibrated_flag` bit 2 of the flags nibble, `motor_id` the target; Ping is alive
on any frame and loads and decodes nothing of it. A frame whose id names no command is read alike. That the
id is not looked at is notes/assumptions/21.md. That the host's part is modelled, a line a step, is the
model's choice (notes/assumptions/4.md, 5.md). That ToggleState is read as a control command is the model's
inference (notes/assumptions/13.md). -/
def Obligations.MasterReadsReplyByCommandSent : Prop :=
  (∀ (i : Instr) (c c' : CmdId) (e : Envelope) (s : State), envelope? i = some (c, e) →
    WellFormed i = true → s.role = .reply c' →
    ∃ t, exec i s = .next t ∧
      (c' ∈ [CmdId.eStop, .calibrate, .toggleState] → NoReset 5 s → ∃ u, Host.Core.run core 5 t = .next u ∧
        u.results = s.results ++ [.control (!e.flags.getLsbD 3)] ∧ u.cur = 2 ∧
        (∀ k, k < 8 → u.buf.read k = byteOf (envelopeData (cmdCode c) e) k) ∧
        u.sent = s.sent ∧ u.calls = s.calls ∧ u.handlerReturns = s.handlerReturns ∧ SequenceFrame 5 s u) ∧
      (c' ∈ [CmdId.setMotorPosition, .setMotorSpeed, .getMotorPosition, .getMotorSpeed, .requestDatapoint] →
        NoReset 6 s → ∃ u, Host.Core.run core 6 t = .next u ∧
        u.results = s.results ++ [if c' = .requestDatapoint then .datapoint e.target e.flags e.value
          else .motor (e.flags.getLsbD 3) (e.flags.getLsbD 2) e.target e.value] ∧ u.cur = 6 ∧
        (∀ k, k < 8 → u.buf.read k = byteOf (envelopeData (cmdCode c) e) k) ∧
        u.sent = s.sent ∧ u.calls = s.calls ∧ u.handlerReturns = s.handlerReturns ∧ SequenceFrame 6 s u) ∧
      (c' = .ping → t = { s with
        results := s.results ++ [.alive true], waiting := false, plan := [], vars := t.vars })) ∧
  (∀ (c' : CmdId) (s : State), Reads s → s.role = .reply c' → HoldsUnassigned s →
    (c' ∈ [CmdId.eStop, .calibrate, .toggleState] → NoReset 6 s → ∃ u, Host.Core.run core 6 s = .next u ∧
      u.results = s.results ++ [.control (!(u.buf.read 1).getLsbD 3)] ∧ u.cur = 2 ∧
      HoldsBytes s.response.frame u.buf ∧
      u.sent = s.sent ∧ u.calls = s.calls ∧ u.handlerReturns = s.handlerReturns ∧ SequenceFrame 6 s u) ∧
    (c' ∈ [CmdId.setMotorPosition, .setMotorSpeed, .getMotorPosition, .getMotorSpeed, .requestDatapoint] →
      NoReset 7 s → ∃ u, Host.Core.run core 7 s = .next u ∧
      u.results = s.results ++ [if c' = .requestDatapoint then
          .datapoint ((u.buf.read 1).extractLsb' 4 4) ((u.buf.read 1).extractLsb' 0 4) (floatIn u.buf)
        else .motor ((u.buf.read 1).getLsbD 3) ((u.buf.read 1).getLsbD 2)
          ((u.buf.read 1).extractLsb' 4 4) (floatIn u.buf)] ∧ u.cur = 6 ∧
      HoldsBytes s.response.frame u.buf ∧
      u.sent = s.sent ∧ u.calls = s.calls ∧ u.handlerReturns = s.handlerReturns ∧ SequenceFrame 7 s u) ∧
    (c' = .ping → ∃ u, step s = .next u ∧ u = { s.advance with
      results := s.results ++ [.alive true], waiting := false, plan := [], vars := u.vars }))

/-- R221, R222, R226, R233, R256, R260: the end of a wait without a frame. A timeout gives "no response", for
Ping "not alive" (R226), and nothing at a slave, which returns without acting (R233); an error status ends the
sequence with it. That the host's part is modelled,
a line a step, is the model's choice (notes/assumptions/4.md, 5.md). -/
def Obligations.WaitEndedWithoutFrame : Prop :=
  ∀ s : State, Reads s → s.role ≠ .poll →
    (s.response.status = .ok → s.response.hit = false →
      (∀ c, s.role = .reply c → c ≠ .ping → step s = .next { s.advance with
        results := s.results ++ [.noResponse], waiting := false, plan := [] }) ∧
      (s.role = .reply .ping → step s = .next { s.advance with
        results := s.results ++ [.alive false], waiting := false, plan := [] }) ∧
      (s.role = .request → step s = .next { s.advance with waiting := false, plan := [] })) ∧
    (s.response.status ≠ .ok → step s = .next { s.advance with
      results := s.results ++ [.failed s.response.status], waiting := false, plan := [] })

/-! ### The host's sequences -/

/-- R14, R256: a step in a host sequence does one line of it. Where the line is a block operation, the block,
its port and the transport are as `exec` of that operation leaves them. The six lines whose response the host
waits for (the awaiting of a reply, a request or a broadcast, `pollOnce`'s `AVAILM` and `TRYTAKE`, bring-up's
`MRESET`) then leave it waiting, in the role that reads that response. After any other block operation it
waits for nothing: an error ends the sequence with its status, and otherwise the next line is next. Where the
line is an action of the host's own the block is left alone, and the sequence goes on, or ends with its one
result. That the host's part is modelled, a line a step, is the model's choice (notes/assumptions/4.md, 5.md).
-/
def Obligations.HostLineIssuesPortOperation : Prop :=
  ∀ (o : HostOp) (rest : List HostOp) (s : State), Continues (o :: rest) s → ∃ u, step s = .next u ∧
    (∀ i, o.instr s = some i → ∃ t, exec i { s.advance with plan := rest } = .next t ∧ SameBlock t u ∧
      (∀ r, o.awaits = some r →
        u.waiting = true ∧ u.role = r ∧ u.plan = rest ∧ u.results = s.results) ∧
      (o.awaits = none → u.waiting = false ∧
        (t.response.status = .ok → u.plan = rest ∧ u.results = s.results) ∧
        (t.response.status ≠ .ok → u.plan = [] ∧
          u.results = s.results ++ [.failed t.response.status]))) ∧
    (o.instr s = none → SameBlock s.advance u ∧ u.waiting = false ∧
      ((∀ k, o ≠ .report k) → u.plan = rest ∧ u.results = s.results) ∧
      (∀ k, o = .report k → u.plan = [] ∧ ∃ r, u.results = s.results ++ [r]))

/-- R191, R222: the master's request frame: identifier `PACK(d, SELF)`, byte0 the command id and `SEQ`, byte1
target and flags, 0 where the command has none, the float for the two commands that carry one and length 6,
else length 2; `SEQ` steps by one modulo 16; the reply is awaited next. That the host's part is modelled, a
line a step, is the model's choice (notes/assumptions/4.md, 5.md). So is the operand bit that ToggleState
sends (notes/assumptions/19.md). -/
def Obligations.MasterSendsRequestFrame : Prop :=
  ∀ (c : CmdId) (d t g : BitVec 16) (v : Word32) (rest : List HostAct) (n : Nat) (s : State),
    Acts (.request c d t g v) rest s → c ≠ .broadcastDatapoint → RequestLines c n → NoReset n s →
    (s.linkAt (n - 1)).writeFails = false →
    ∃ u f, Host.Core.run core n s = .next u ∧ u.sent = s.sent ++ [f] ∧
      f.id.toNat = d.toNat % 64 * 64 + s.params.self.toNat ∧
      f.len = (if c = .setMotorPosition ∨ c = .setMotorSpeed then 6 else 2) ∧
      (byteOf f.data 0).toNat = (cmdCode c).toNat * 16 + s.seq.toNat ∧
      (byteOf f.data 1).toNat =
        (if c = .eStop ∨ c = .ping then 0 else t.toNat % 16) * 16 +
        (if c = .toggleState then g.toNat % 2 else if c = .requestDatapoint then g.toNat % 16 else 0) ∧
      f.data.extractLsb' 16 32 = (if c = .setMotorPosition ∨ c = .setMotorSpeed then v else 0) ∧
      f.data.extractLsb' 48 16 = 0 ∧
      u.seq.toNat = (s.seq.toNat + 1) % 16 ∧ u.plan = [.packFrom d, .awaitReply c] ∧
      u = { s.advances n with
        buf := u.buf, cur := u.cur, rsp := u.rsp, op := none, sent := u.sent, script := rest, seq := u.seq
        plan := u.plan, vars := u.vars }

/-- R222, R239, R256: a master's request, and a broadcast, whose `SENDF` fails: nothing is sent, the result is
`TransportError`, and nothing is left to do or awaited. The master's `SEQ` has stepped. That no frame is then
listed as sent is the model's reading (notes/assumptions/14.md). That the host's part is modelled, a line a
step, is the model's choice (notes/assumptions/4.md, 5.md). -/
def Obligations.FailedSendEndsSequence : Prop :=
  (∀ (c : CmdId) (d t g : BitVec 16) (v : Word32) (rest : List HostAct) (n : Nat) (s : State),
    Acts (.request c d t g v) rest s → c ≠ .broadcastDatapoint → RequestLines c n → NoReset n s →
    (s.linkAt (n - 1)).writeFails = true →
    ∃ u, Host.Core.run core n s = .next u ∧ u.response = Response.error .transportError ∧
      u.seq.toNat = (s.seq.toNat + 1) % 16 ∧
      u = { s.advances n with
        buf := u.buf, cur := u.cur, rsp := u.rsp, op := none, script := rest, seq := u.seq, plan := []
        vars := u.vars, results := s.results ++ [.failed .transportError] }) ∧
  (∀ (st ch : BitVec 16) (v : Word32) (rest : List HostAct) (s : State), Acts (.broadcast st ch v) rest s →
    NoReset 8 s → (s.linkAt 7).writeFails = true →
    ∃ u, Host.Core.run core 8 s = .next u ∧ u.response = Response.error .transportError ∧
      u = { s.advances 8 with
        buf := u.buf, cur := u.cur, rsp := u.rsp, op := none, script := rest, plan := [], vars := u.vars
        results := s.results ++ [.failed .transportError] })

/-- R223, R222, R225, R233: the filters of the awaiting sequences. A master awaits exactly the identifier with
roles swapped until `NOW + T_REPLY`; a slave awaits any frame for its own address until `NOW + T_LISTEN`; a
passive listener awaits any broadcast without a deadline, and sends nothing. On a silent transport with no
buffered match the read is then in progress with that filter. That the host's part is modelled, a line a
step, is the model's choice (notes/assumptions/4.md, 5.md). -/
def Obligations.AwaitedFilters : Prop :=
  (∀ (c : CmdId) (d : BitVec 16) (s : State), Continues [.packFrom d, .awaitReply c] s → NoReset 2 s →
    (s.advances 2).tq = [] → (s.advances 2).link.availFails = false → (s.advances 2).link.lag = 0 →
    0 < s.params.tReply.toNat → NoneMatch (s.params.self ++ d.extractLsb' 0 6) 0xFFF s.pq →
    ∃ u, Host.Core.run core 2 s = .next u ∧ u.vars = { s.vars with id := u.vars.id } ∧
      u = { s.advances 2 with
        op := some .readMT, opId := s.params.self ++ d.extractLsb' 0 6, opMask := 0xFFF
        dl := (s.advances 2).now + s.params.tReply.toNat, rsp := u.rsp, waiting := true, role := .reply c
        plan := [], vars := u.vars }) ∧
  (∀ (rest : List HostAct) (s : State), Acts .listen rest s → NoReset 2 s →
    (s.advances 2).tq = [] → (s.advances 2).link.availFails = false → (s.advances 2).link.lag = 0 →
    0 < s.params.tListen.toNat → NoneMatch (s.params.self ++ (0 : BitVec 6)) 0xFC0 s.pq →
    ∃ u, Host.Core.run core 2 s = .next u ∧ u.vars = { s.vars with id := u.vars.id } ∧
      u = { s.advances 2 with
        op := some .readMT, opId := s.params.self ++ (0 : BitVec 6), opMask := 0xFC0
        dl := (s.advances 2).now + s.params.tListen.toNat, rsp := u.rsp, waiting := true, role := .request
        script := rest, plan := [], vars := u.vars }) ∧
  (∀ (d t g : BitVec 16) (v : Word32) (rest : List HostAct) (s : State),
    Acts (.request .broadcastDatapoint d t g v) rest s →
    s.advance.tq = [] → s.advance.link.readFails = false → s.queueFull = false →
    NoneMatch 0xFC0 0xFC0 s.pq →
    step s = .next { s.advance with
      op := some .readM, opId := 0xFC0, opMask := 0xFC0, waiting := true, role := .broadcast
      script := rest, plan := [] })

/-- R239: a broadcast datapoint is sent to the broadcast address with sequence nibble 0, stream and channel
in byte1, the float, and length 6. That the host's part is modelled, a line a step, is the model's choice
(notes/assumptions/4.md, 5.md). -/
def Obligations.BroadcastFrameSent : Prop :=
  ∀ (st ch : BitVec 16) (v : Word32) (rest : List HostAct) (s : State), Acts (.broadcast st ch v) rest s →
    NoReset 8 s → (s.linkAt 7).writeFails = false →
    ∃ u, Host.Core.run core 8 s = .next u ∧
      u.sent = s.sent ++ [{ id := (0x3F : BitVec 6) ++ s.params.self, len := 6
                            data := (0 : BitVec 16) ++ v ++ st.extractLsb' 0 4 ++ ch.extractLsb' 0 4 ++
                              (0x70 : BitVec 8) }] ∧
      u = { s.advances 8 with
        buf := u.buf, cur := u.cur, rsp := u.rsp, op := none, sent := u.sent, script := rest, plan := []
        vars := u.vars }

/-- R234, R256: `pollOnce` packs its own address with 0 and issues `AVAILM` with that identifier and the mask
0xFC0; it waits for the answer, returns without acting on 0, and ends with the status on an error. That the
host's part is modelled, a line a step, is the model's choice (notes/assumptions/4.md, 5.md). -/
def Obligations.PollOnceStartsAndEnds : Prop :=
  (∀ (rest : List HostAct) (s : State), Acts .pollOnce rest s → NoReset 2 s →
    ∃ w, exec (.availM (s.params.self ++ (0 : BitVec 6)) 0xFC0) { s.advances 2 with
        script := rest, plan := [], op := none
        rsp := Response.values ((s.params.self ++ (0 : BitVec 6)).setWidth 32) 0 :: s.rsp
        vars := { s.vars with id := (s.params.self ++ (0 : BitVec 6)).setWidth 32 } } = .next w ∧
      Host.Core.run core 2 s = .next { w with waiting := true, role := .poll }) ∧
  (∀ s : State, Reads s → s.role = .poll →
    (s.response.status = .ok → s.res0 = 0 →
      step s = .next { s.advance with waiting := false, plan := [] }) ∧
    (s.response.status ≠ .ok → step s = .next { s.advance with
      results := s.results ++ [.failed s.response.status], waiting := false, plan := [] }))

/-- R234: `pollOnce` with the frame already queued: `AVAILM` answered true, and the next step takes the frame
by `TRYTAKE`; the host then serves it as in `listen`. That the host's part is modelled, a line a step, is the
model's choice (notes/assumptions/4.md, 5.md). -/
def Obligations.PollTakesAvailableFrame : Prop :=
  ∀ (l₁ l₂ : List Frame) (f : Frame) (s : State), Reads s → s.role = .poll → s.response.status = .ok →
    s.res0 ≠ 0 → s.vars.id = (s.params.self ++ (0 : BitVec 6)).setWidth 32 → s.pq = l₁ ++ f :: l₂ →
    NoneMatch (s.params.self ++ (0 : BitVec 6)) 0xFC0 l₁ → destOf f.id = s.params.self →
    step s = .next { s.advance with
      pq := l₁ ++ l₂, rsp := Response.found f :: s.rsp, role := .request, op := none, plan := [] }
end

