-- ==== Sys2Proof/Laws/Encoding.lean ====
section
/-! SUPPORT. The fields of an encoded word: each field of a format reads back what the encoder put there. -/

namespace Sys2Proof

/-- A slice that lies in the high part of a concatenation. -/
theorem slice_high {n m k j : Nat} (a : BitVec n) (b : BitVec m) (h : m ≤ k) :
    (a ++ b).extractLsb' k j = a.extractLsb' (k - m) j := by
  apply BitVec.eq_of_getLsbD_eq
  intro i hi
  simp [BitVec.getLsbD_append, hi, show ¬ k + i < m by omega, show k + i - m = k - m + i by omega]

/-- A slice that lies in the low part of a concatenation. -/
theorem slice_low {n m k j : Nat} (a : BitVec n) (b : BitVec m) (h : k + j ≤ m) :
    (a ++ b).extractLsb' k j = b.extractLsb' k j := by
  apply BitVec.eq_of_getLsbD_eq
  intro i hi
  simp [BitVec.getLsbD_append, hi, show k + i < m by omega]

/-- The whole of a word as a slice. -/
theorem slice_all {n : Nat} (a : BitVec n) : a.extractLsb' 0 n = a := by
  apply BitVec.eq_of_getLsbD_eq
  intro i hi
  simp [hi]

theorem opcField_wordN (o : Byte) : opcField (wordN o) = o := by
  unfold opcField wordN
  rw [slice_high _ _ (by omega), slice_all]

theorem opcField_wordV (o : Byte) (v : Word32) : opcField (wordV o v) = o := by
  unfold opcField wordV
  rw [slice_high _ _ (by omega), slice_high _ _ (by omega), slice_all]

theorem vField_wordV (o : Byte) (v : Word32) : vField (wordV o v) = v := by
  unfold vField wordV
  rw [slice_low _ _ (by omega), slice_all]

theorem opcField_wordP (o : Byte) (a b : BitVec 16) : opcField (wordP o a b) = o := by
  unfold opcField wordP
  rw [slice_high _ _ (by omega), slice_high _ _ (by omega), slice_high _ _ (by omega), slice_all]

theorem aField_wordP (o : Byte) (a b : BitVec 16) : aField (wordP o a b) = a := by
  unfold aField wordP
  rw [slice_high _ _ (by omega), slice_low _ _ (by omega), slice_all]

theorem bField_wordP (o : Byte) (a b : BitVec 16) : bField (wordP o a b) = b := by
  unfold bField wordP
  rw [slice_low _ _ (by omega), slice_all]

theorem opcField_wordM (o : Byte) (t : Word32) (id mask : Ident) : opcField (wordM o t id mask) = o := by
  unfold opcField wordM
  rw [slice_high _ _ (by omega), slice_high _ _ (by omega), slice_high _ _ (by omega),
    slice_high _ _ (by omega), slice_high _ _ (by omega), slice_high _ _ (by omega), slice_all]

theorem tField_wordM (o : Byte) (t : Word32) (id mask : Ident) : tField (wordM o t id mask) = t := by
  unfold tField wordM
  rw [slice_high _ _ (by omega), slice_high _ _ (by omega), slice_high _ _ (by omega),
    slice_high _ _ (by omega), slice_low _ _ (by omega), slice_all]

theorem idField_wordM (o : Byte) (t : Word32) (id mask : Ident) : idField (wordM o t id mask) = id := by
  unfold idField wordM
  rw [slice_high _ _ (by omega), slice_high _ _ (by omega), slice_low _ _ (by omega), slice_all]

theorem maskField_wordM (o : Byte) (t : Word32) (id mask : Ident) :
    maskField (wordM o t id mask) = mask := by
  unfold maskField wordM
  rw [slice_low _ _ (by omega), slice_all]

theorem opcField_wordB (o : Byte) (len : BitVec 4) (data : Payload) : opcField (wordB o len data) = o := by
  unfold opcField wordB
  rw [slice_high _ _ (by omega), slice_high _ _ (by omega), slice_high _ _ (by omega), slice_all]

theorem bufLenField_wordB (o : Byte) (len : BitVec 4) (data : Payload) :
    bufLenField (wordB o len data) = len := by
  unfold bufLenField wordB
  rw [slice_high _ _ (by omega), slice_low _ _ (by omega), slice_all]

theorem dataField_wordB (o : Byte) (len : BitVec 4) (data : Payload) :
    dataField (wordB o len data) = data := by
  unfold dataField wordB
  rw [slice_low _ _ (by omega), slice_all]

theorem opcField_wordS (o : Byte) (id : Ident) (len : BitVec 4) : opcField (wordS o id len) = o := by
  unfold opcField wordS
  rw [slice_high _ _ (by omega), slice_high _ _ (by omega), slice_high _ _ (by omega),
    slice_high _ _ (by omega), slice_all]

theorem idField_wordS (o : Byte) (id : Ident) (len : BitVec 4) : idField (wordS o id len) = id := by
  unfold idField wordS
  rw [slice_high _ _ (by omega), slice_high _ _ (by omega), slice_low _ _ (by omega), slice_all]

theorem sendLenField_wordS (o : Byte) (id : Ident) (len : BitVec 4) :
    sendLenField (wordS o id len) = len := by
  unfold sendLenField wordS
  rw [slice_low _ _ (by omega), slice_all]

/-- The command id nibble of an envelope's payload. -/
theorem cmdOf_envelopeData (c : Nibble) (e : Envelope) :
    Machine.cmdOf (Machine.envelopeData c e) = c := by
  unfold Machine.cmdOf Machine.envelopeData
  rw [slice_high _ _ (by omega), slice_low _ _ (by omega), slice_all]

/-- The other fields of an envelope's payload. -/
theorem envelopeOf_envelopeData (c : Nibble) (e : Envelope) :
    Machine.envelopeOf e.len (Machine.envelopeData c e) = e := by
  cases e
  simp only [Machine.envelopeOf, Machine.envelopeData, Envelope.mk.injEq, true_and]
  refine ⟨?_, ?_, ?_, ?_, ?_⟩
  · rw [slice_low _ _ (by omega), slice_all]
  · rw [slice_high _ _ (by omega), slice_high _ _ (by omega), slice_high _ _ (by omega),
      slice_low _ _ (by omega), slice_all]
  · rw [slice_high _ _ (by omega), slice_high _ _ (by omega), slice_low _ _ (by omega), slice_all]
  · rw [slice_high _ _ (by omega), slice_high _ _ (by omega), slice_high _ _ (by omega),
      slice_high _ _ (by omega), slice_low _ _ (by omega), slice_all]
  · rw [slice_high _ _ (by omega), slice_high _ _ (by omega), slice_high _ _ (by omega),
      slice_high _ _ (by omega), slice_high _ _ (by omega), slice_all]

end Sys2Proof
end

