-- ==== Sys2Proof/Laws/Memory.lean ====
section
/-! SUPPORT. The laws of the command buffer: every write keeps the canonical form, a read after a write
gives the byte written, and a write leaves every other address alone. -/

namespace Sys2Proof.Machine

theorem wfFrom_mono {lo lo' : Nat} {m : Memory} (h : lo' ≤ lo) (hm : Memory.wfFrom lo m = true) :
    Memory.wfFrom lo' m = true := by
  cases m with
  | nil => rfl
  | cons c m =>
    obtain ⟨k, b⟩ := c
    simp only [Memory.wfFrom, Bool.and_eq_true, decide_eq_true_eq] at hm ⊢
    exact ⟨⟨⟨by omega, hm.1.1.2⟩, hm.1.2⟩, hm.2⟩

/-- Below a canonical list's first address every byte reads as unlisted. -/
theorem read_below {lo a : Nat} {m : Memory} (h : a < lo) (hm : Memory.wfFrom lo m = true) :
    Memory.read m a = unlistedByte := by
  induction m generalizing lo with
  | nil => rfl
  | cons c m ih =>
    obtain ⟨k, b⟩ := c
    simp only [Memory.wfFrom, Bool.and_eq_true, decide_eq_true_eq] at hm
    have hk : k ≠ a := by omega
    simp only [Memory.read, if_neg hk]
    exact ih (lo := k + 1) (by omega) hm.2

/-- A canonical list reads as unlisted outside the buffer's addresses. -/
theorem read_outside {lo a : Nat} {m : Memory} (hm : Memory.wfFrom lo m = true) (h : bufBytes ≤ a) :
    Memory.read m a = unlistedByte := by
  induction m generalizing lo with
  | nil => rfl
  | cons c m ih =>
    obtain ⟨k, b⟩ := c
    simp only [Memory.wfFrom, Bool.and_eq_true, decide_eq_true_eq] at hm
    have hk : k ≠ a := by omega
    simp only [Memory.read, if_neg hk]
    exact ih hm.2

theorem write_wfFrom {lo a : Nat} {b : Byte} {m : Memory} (hlo : lo ≤ a) (ha : a < bufBytes)
    (hm : Memory.wfFrom lo m = true) : Memory.wfFrom lo (Memory.write m a b) = true := by
  induction m generalizing lo with
  | nil => by_cases hb : b = unlistedByte <;> simp [Memory.write, Memory.wfFrom, hb, hlo, ha]
  | cons c m ih =>
    obtain ⟨k, c⟩ := c
    simp only [Memory.wfFrom, Bool.and_eq_true, decide_eq_true_eq] at hm
    obtain ⟨⟨⟨h1, h2⟩, h3⟩, h4⟩ := hm
    simp only [Memory.write]
    split
    · rename_i hak
      by_cases hb : b = unlistedByte
      · simp [hb, Memory.wfFrom, h1, h2, h3, h4]
      · simp [hb, Memory.wfFrom, hlo, ha, h2, h3, h4]; omega
    · split
      · subst_vars
        by_cases hb : b = unlistedByte
        · rw [if_pos hb]; exact wfFrom_mono (by omega) h4
        · simp [hb, Memory.wfFrom, hlo, ha, h4]
      · simp only [Memory.wfFrom, Bool.and_eq_true, decide_eq_true_eq]
        exact ⟨⟨⟨h1, h2⟩, h3⟩, ih (by omega) h4⟩

/-- A write at an address of the buffer keeps the canonical form. -/
theorem write_wf {a : Nat} {b : Byte} {m : Memory} (ha : a < bufBytes) (hm : m.wf = true) :
    (Memory.write m a b).wf = true := write_wfFrom (Nat.zero_le a) ha hm

/-- A read after a write to the same address gives the byte written. -/
theorem read_write_same {lo a : Nat} {b : Byte} {m : Memory} (hm : Memory.wfFrom lo m = true) :
    Memory.read (Memory.write m a b) a = b := by
  induction m generalizing lo with
  | nil =>
    by_cases hb : b = unlistedByte
    · simp [Memory.write, Memory.read, hb]
    · simp [Memory.write, Memory.read, hb]
  | cons c m ih =>
    obtain ⟨k, c⟩ := c
    simp only [Memory.wfFrom, Bool.and_eq_true, decide_eq_true_eq] at hm
    obtain ⟨⟨⟨-, -⟩, -⟩, h4⟩ := hm
    simp only [Memory.write]
    split
    · rename_i hak
      by_cases hb : b = unlistedByte
      · have hk : k ≠ a := by omega
        rw [if_pos hb, hb]
        simp only [Memory.read, if_neg hk]
        exact read_below (by omega) h4
      · simp [hb, Memory.read]
    · split
      · subst_vars
        by_cases hb : b = unlistedByte
        · rw [if_pos hb, hb]; exact read_below (by omega) h4
        · simp [hb, Memory.read]
      · rename_i h1 h2
        have hk : k ≠ a := fun h => h2 h.symm
        simp only [Memory.read, if_neg hk]
        exact ih h4

/-- A write leaves every other address alone. -/
theorem read_write_other {a a' : Nat} {b : Byte} {m : Memory} (h : a' ≠ a) :
    Memory.read (Memory.write m a b) a' = Memory.read m a' := by
  induction m with
  | nil => by_cases hb : b = unlistedByte <;> simp [Memory.write, Memory.read, hb, h.symm]
  | cons c m ih =>
    obtain ⟨k, c⟩ := c
    simp only [Memory.write]
    split
    · by_cases hb : b = unlistedByte <;> simp [hb, Memory.read, h.symm]
    · split
      · subst_vars
        by_cases hb : b = unlistedByte <;> simp [hb, Memory.read, h.symm]
      · simp only [Memory.read, ih]

/-- A write of `n` bytes inside the buffer keeps the canonical form. -/
theorem writeN_wf {n a : Nat} {v : Payload} {m : Memory} (h : a + n ≤ bufBytes) (hm : m.wf = true) :
    (Memory.writeN m a n v).wf = true := by
  induction n generalizing a v m with
  | zero => exact hm
  | succ n ih => exact ih (by omega) (write_wf (by omega) hm)

/-- A write of `n` bytes leaves every other address alone. -/
theorem read_writeN_outside {n a a' : Nat} {v : Payload} {m : Memory} (h : a' < a ∨ a + n ≤ a') :
    Memory.read (Memory.writeN m a n v) a' = Memory.read m a' := by
  induction n generalizing a v m with
  | zero => rfl
  | succ n ih =>
    simp only [Memory.writeN]
    rw [ih (by omega), read_write_other (by omega)]

theorem byteOf_shift (v : Payload) (k : Nat) : byteOf (v >>> 8) k = byteOf v (k + 1) := by
  simp only [byteOf]
  ext i hi
  simp [show 8 * (k + 1) + i = 8 + (8 * k + i) by omega]

theorem byteOf_zero (v : Payload) : v.setWidth 8 = byteOf v 0 := by
  simp only [byteOf]
  ext i hi
  simp

/-- A read after a write of `n` bytes gives the bytes written, the least significant at the lowest
address. -/
theorem read_writeN_inside {n a k : Nat} {v : Payload} {m : Memory} (hk : k < n)
    (h : a + n ≤ bufBytes) (hm : m.wf = true) :
    Memory.read (Memory.writeN m a n v) (a + k) = byteOf v k := by
  induction n generalizing a v m k with
  | zero => omega
  | succ n ih =>
    simp only [Memory.writeN]
    cases k with
    | zero =>
      simp only [Nat.add_zero]
      rw [read_writeN_outside (Or.inl (by omega)), read_write_same hm, byteOf_zero]
    | succ k =>
      rw [show a + (k + 1) = a + 1 + k by omega,
        ih (by omega) (by omega) (write_wf (by omega) hm), byteOf_shift]

/-- Byte `k` of an `n`-byte read is the byte at its address, 0x00 beyond the buffer. -/
theorem byteOf_readN {n a k : Nat} {m : Memory} (hn : n ≤ 8) :
    byteOf (Memory.readN m a n) k = if k < n then Memory.readPast m (a + k) else 0 := by
  induction n generalizing a k with
  | zero => simp [Memory.readN, byteOf]
  | succ n ih =>
    have hb : ∀ i, (Memory.readN m (a + 1) n).getLsbD i = true → i < 8 * n := by
      intro i hi
      by_contra hc
      have := ih (a := a + 1) (k := i / 8) (by omega)
      rw [if_neg (by omega)] at this
      have h2 := congrArg (fun b => b.getLsbD (i % 8)) this
      simp only [byteOf, BitVec.getLsbD_extractLsb'] at h2
      rw [show 8 * (i / 8) + i % 8 = i by omega, hi] at h2
      simp [Nat.mod_lt] at h2
    cases k with
    | zero =>
      simp only [byteOf, Memory.readN]
      ext i hi
      simp [hi]
      intro h; omega
    | succ k =>
      have := ih (a := a + 1) (k := k) (by omega)
      rw [show a + 1 + k = a + (k + 1) by omega] at this
      have e : (k + 1 < n + 1) = (k < n) := by simp
      simp only [e]
      rw [← this]
      simp only [byteOf, Memory.readN]
      ext i hi
      simp only [BitVec.getElem_extractLsb', BitVec.getLsbD_or, BitVec.getLsbD_shiftLeft,
        BitVec.getLsbD_setWidth]
      rw [show 8 * (k + 1) + i - 8 = 8 * k + i by omega]
      have h8 : ¬ 8 * (k + 1) + i < 8 := by omega
      by_cases hw : 8 * (k + 1) + i < 64
      · have : (Memory.readPast m a).getLsbD (8 * (k + 1) + i) = false :=
          BitVec.getLsbD_of_ge _ _ (by omega)
        simp [hw, h8, this]
      · have h2 : (Memory.readN m (a + 1) n).getLsbD (8 * k + i) = false := by
          by_contra hc
          have := hb _ (by simpa using hc)
          omega
        simp [hw, h2]

/-- Two payloads with the same eight bytes are equal. -/
theorem payload_ext {v w : Payload} (h : ∀ k, k < 8 → byteOf v k = byteOf w k) : v = w := by
  apply BitVec.eq_of_getLsbD_eq
  intro i hi
  have := congrArg (fun b => b.getLsbD (i % 8)) (h (i / 8) (by omega))
  simp only [byteOf, BitVec.getLsbD_extractLsb'] at this
  rw [show 8 * (i / 8) + i % 8 = i by omega] at this
  have h8 : i % 8 < 8 := Nat.mod_lt _ (by omega)
  simpa [h8] using this

/-- The bits of a masked payload. -/
theorem getLsbD_maskBytes (len : Nat) (v : Payload) (i : Nat) :
    (maskBytes len v).getLsbD i = (v.getLsbD i && decide (i < 8 * len)) := by
  by_cases h : i < 64
  · simp only [maskBytes, BitVec.getLsbD_and, BitVec.getLsbD_ofNat, Nat.testBit_two_pow_sub_one]
    simp [h]
  · simp [BitVec.getLsbD_of_ge v i (by omega), BitVec.getLsbD_of_ge (maskBytes len v) i (by omega)]

/-- The bytes of a masked payload. -/
theorem byteOf_maskBytes (len : Nat) (v : Payload) (k : Nat) :
    byteOf (maskBytes len v) k = if k < len then byteOf v k else 0 := by
  apply BitVec.eq_of_getLsbD_eq
  intro i hi
  by_cases h : k < len
  · simp [byteOf, getLsbD_maskBytes, h, show 8 * k + i < 8 * len by omega]
  · simp [byteOf, getLsbD_maskBytes, h, show ¬ 8 * k + i < 8 * len by omega]

/-- Masking twice is masking once. -/
theorem maskBytes_maskBytes (len : Nat) (v : Payload) :
    maskBytes len (maskBytes len v) = maskBytes len v := by
  simp [maskBytes, BitVec.and_assoc]

/-- Reading back an `n`-byte write. -/
theorem readN_writeN {n a : Nat} {v : Payload} {m : Memory} (h : a + n ≤ bufBytes) (hm : m.wf = true) :
    Memory.readN (Memory.writeN m a n v) a n = maskBytes n v := by
  have hn : n ≤ 8 := by simp only [bufBytes] at h; omega
  apply payload_ext
  intro k hk
  rw [byteOf_readN hn, byteOf_maskBytes]
  simp only [Memory.readPast]
  by_cases hkn : k < n
  · rw [if_pos hkn, if_pos (by omega), if_pos hkn, read_writeN_inside hkn h hm]
  · rw [if_neg hkn, if_neg hkn]

end Sys2Proof.Machine
end

