-- ==== Sys2Proof/Laws/State.lean ====
section
/-! SUPPORT. One lemma per field per update of the state, each true by rfl. -/

namespace Sys2Proof.Machine

/-! ### respond -/

@[simp] theorem respond_buf (r : Response) (s : State) : (respond r s).buf = s.buf := rfl
@[simp] theorem respond_cur (r : Response) (s : State) : (respond r s).cur = s.cur := rfl
@[simp] theorem respond_pq (r : Response) (s : State) : (respond r s).pq = s.pq := rfl
@[simp] theorem respond_dl (r : Response) (s : State) : (respond r s).dl = s.dl := rfl
@[simp] theorem respond_opId (r : Response) (s : State) : (respond r s).opId = s.opId := rfl
@[simp] theorem respond_opMask (r : Response) (s : State) : (respond r s).opMask = s.opMask := rfl
@[simp] theorem respond_op (r : Response) (s : State) : (respond r s).op = none := rfl
@[simp] theorem respond_rsp (r : Response) (s : State) : (respond r s).rsp = r :: s.rsp := rfl
@[simp] theorem respond_tq (r : Response) (s : State) : (respond r s).tq = s.tq := rfl
@[simp] theorem respond_sent (r : Response) (s : State) : (respond r s).sent = s.sent := rfl
@[simp] theorem respond_now (r : Response) (s : State) : (respond r s).now = s.now := rfl
@[simp] theorem respond_link (r : Response) (s : State) : (respond r s).link = s.link := rfl
@[simp] theorem respond_ticks (r : Response) (s : State) : (respond r s).ticks = s.ticks := rfl
@[simp] theorem respond_script (r : Response) (s : State) : (respond r s).script = s.script := rfl
@[simp] theorem respond_seq (r : Response) (s : State) : (respond r s).seq = s.seq := rfl
@[simp] theorem respond_plan (r : Response) (s : State) : (respond r s).plan = s.plan := rfl
@[simp] theorem respond_vars (r : Response) (s : State) : (respond r s).vars = s.vars := rfl
@[simp] theorem respond_waiting (r : Response) (s : State) : (respond r s).waiting = s.waiting := rfl
@[simp] theorem respond_role (r : Response) (s : State) : (respond r s).role = s.role := rfl
@[simp] theorem respond_handlerReturns (r : Response) (s : State) : (respond r s).handlerReturns = s.handlerReturns := rfl
@[simp] theorem respond_calls (r : Response) (s : State) : (respond r s).calls = s.calls := rfl
@[simp] theorem respond_results (r : Response) (s : State) : (respond r s).results = s.results := rfl
@[simp] theorem respond_params (r : Response) (s : State) : (respond r s).params = s.params := rfl

/-! ### raise -/

@[simp] theorem raise_buf (e : Status) (s : State) : (raise e s).buf = s.buf := rfl
@[simp] theorem raise_cur (e : Status) (s : State) : (raise e s).cur = s.cur := rfl
@[simp] theorem raise_pq (e : Status) (s : State) : (raise e s).pq = s.pq := rfl
@[simp] theorem raise_dl (e : Status) (s : State) : (raise e s).dl = s.dl := rfl
@[simp] theorem raise_opId (e : Status) (s : State) : (raise e s).opId = s.opId := rfl
@[simp] theorem raise_opMask (e : Status) (s : State) : (raise e s).opMask = s.opMask := rfl
@[simp] theorem raise_op (e : Status) (s : State) : (raise e s).op = none := rfl
@[simp] theorem raise_rsp (e : Status) (s : State) : (raise e s).rsp = Response.error e :: s.rsp := rfl
@[simp] theorem raise_tq (e : Status) (s : State) : (raise e s).tq = s.tq := rfl
@[simp] theorem raise_sent (e : Status) (s : State) : (raise e s).sent = s.sent := rfl
@[simp] theorem raise_now (e : Status) (s : State) : (raise e s).now = s.now := rfl
@[simp] theorem raise_link (e : Status) (s : State) : (raise e s).link = s.link := rfl
@[simp] theorem raise_ticks (e : Status) (s : State) : (raise e s).ticks = s.ticks := rfl
@[simp] theorem raise_script (e : Status) (s : State) : (raise e s).script = s.script := rfl
@[simp] theorem raise_seq (e : Status) (s : State) : (raise e s).seq = s.seq := rfl
@[simp] theorem raise_plan (e : Status) (s : State) : (raise e s).plan = s.plan := rfl
@[simp] theorem raise_vars (e : Status) (s : State) : (raise e s).vars = s.vars := rfl
@[simp] theorem raise_waiting (e : Status) (s : State) : (raise e s).waiting = s.waiting := rfl
@[simp] theorem raise_role (e : Status) (s : State) : (raise e s).role = s.role := rfl
@[simp] theorem raise_handlerReturns (e : Status) (s : State) : (raise e s).handlerReturns = s.handlerReturns := rfl
@[simp] theorem raise_calls (e : Status) (s : State) : (raise e s).calls = s.calls := rfl
@[simp] theorem raise_results (e : Status) (s : State) : (raise e s).results = s.results := rfl
@[simp] theorem raise_params (e : Status) (s : State) : (raise e s).params = s.params := rfl

/-! ### respondFound -/

@[simp] theorem respondFound_buf (f : Frame) (s : State) : (respondFound f s).buf = s.buf := rfl
@[simp] theorem respondFound_cur (f : Frame) (s : State) : (respondFound f s).cur = s.cur := rfl
@[simp] theorem respondFound_pq (f : Frame) (s : State) : (respondFound f s).pq = s.pq := rfl
@[simp] theorem respondFound_dl (f : Frame) (s : State) : (respondFound f s).dl = s.dl := rfl
@[simp] theorem respondFound_opId (f : Frame) (s : State) : (respondFound f s).opId = s.opId := rfl
@[simp] theorem respondFound_opMask (f : Frame) (s : State) : (respondFound f s).opMask = s.opMask := rfl
@[simp] theorem respondFound_op (f : Frame) (s : State) : (respondFound f s).op = none := rfl
@[simp] theorem respondFound_rsp (f : Frame) (s : State) : (respondFound f s).rsp = Response.found f :: s.rsp := rfl
@[simp] theorem respondFound_tq (f : Frame) (s : State) : (respondFound f s).tq = s.tq := rfl
@[simp] theorem respondFound_sent (f : Frame) (s : State) : (respondFound f s).sent = s.sent := rfl
@[simp] theorem respondFound_now (f : Frame) (s : State) : (respondFound f s).now = s.now := rfl
@[simp] theorem respondFound_link (f : Frame) (s : State) : (respondFound f s).link = s.link := rfl
@[simp] theorem respondFound_ticks (f : Frame) (s : State) : (respondFound f s).ticks = s.ticks := rfl
@[simp] theorem respondFound_script (f : Frame) (s : State) : (respondFound f s).script = s.script := rfl
@[simp] theorem respondFound_seq (f : Frame) (s : State) : (respondFound f s).seq = s.seq := rfl
@[simp] theorem respondFound_plan (f : Frame) (s : State) : (respondFound f s).plan = s.plan := rfl
@[simp] theorem respondFound_vars (f : Frame) (s : State) : (respondFound f s).vars = s.vars := rfl
@[simp] theorem respondFound_waiting (f : Frame) (s : State) : (respondFound f s).waiting = s.waiting := rfl
@[simp] theorem respondFound_role (f : Frame) (s : State) : (respondFound f s).role = s.role := rfl
@[simp] theorem respondFound_handlerReturns (f : Frame) (s : State) : (respondFound f s).handlerReturns = s.handlerReturns := rfl
@[simp] theorem respondFound_calls (f : Frame) (s : State) : (respondFound f s).calls = s.calls := rfl
@[simp] theorem respondFound_results (f : Frame) (s : State) : (respondFound f s).results = s.results := rfl
@[simp] theorem respondFound_params (f : Frame) (s : State) : (respondFound f s).params = s.params := rfl

/-! ### enqueue -/

@[simp] theorem enqueue_buf (f : Frame) (s : State) : (s.enqueue f).buf = s.buf := rfl
@[simp] theorem enqueue_cur (f : Frame) (s : State) : (s.enqueue f).cur = s.cur := rfl
@[simp] theorem enqueue_pq (f : Frame) (s : State) : (s.enqueue f).pq = s.pq ++ [f] := rfl
@[simp] theorem enqueue_dl (f : Frame) (s : State) : (s.enqueue f).dl = s.dl := rfl
@[simp] theorem enqueue_opId (f : Frame) (s : State) : (s.enqueue f).opId = s.opId := rfl
@[simp] theorem enqueue_opMask (f : Frame) (s : State) : (s.enqueue f).opMask = s.opMask := rfl
@[simp] theorem enqueue_op (f : Frame) (s : State) : (s.enqueue f).op = s.op := rfl
@[simp] theorem enqueue_rsp (f : Frame) (s : State) : (s.enqueue f).rsp = s.rsp := rfl
@[simp] theorem enqueue_tq (f : Frame) (s : State) : (s.enqueue f).tq = s.tq := rfl
@[simp] theorem enqueue_sent (f : Frame) (s : State) : (s.enqueue f).sent = s.sent := rfl
@[simp] theorem enqueue_now (f : Frame) (s : State) : (s.enqueue f).now = s.now := rfl
@[simp] theorem enqueue_link (f : Frame) (s : State) : (s.enqueue f).link = s.link := rfl
@[simp] theorem enqueue_ticks (f : Frame) (s : State) : (s.enqueue f).ticks = s.ticks := rfl
@[simp] theorem enqueue_script (f : Frame) (s : State) : (s.enqueue f).script = s.script := rfl
@[simp] theorem enqueue_seq (f : Frame) (s : State) : (s.enqueue f).seq = s.seq := rfl
@[simp] theorem enqueue_plan (f : Frame) (s : State) : (s.enqueue f).plan = s.plan := rfl
@[simp] theorem enqueue_vars (f : Frame) (s : State) : (s.enqueue f).vars = s.vars := rfl
@[simp] theorem enqueue_waiting (f : Frame) (s : State) : (s.enqueue f).waiting = s.waiting := rfl
@[simp] theorem enqueue_role (f : Frame) (s : State) : (s.enqueue f).role = s.role := rfl
@[simp] theorem enqueue_handlerReturns (f : Frame) (s : State) : (s.enqueue f).handlerReturns = s.handlerReturns := rfl
@[simp] theorem enqueue_calls (f : Frame) (s : State) : (s.enqueue f).calls = s.calls := rfl
@[simp] theorem enqueue_results (f : Frame) (s : State) : (s.enqueue f).results = s.results := rfl
@[simp] theorem enqueue_params (f : Frame) (s : State) : (s.enqueue f).params = s.params := rfl

/-! ### accept -/

@[simp] theorem accept_buf (k : MatcherOp) (id mask : Ident) (s : State) : (accept k id mask s).buf = s.buf := rfl
@[simp] theorem accept_cur (k : MatcherOp) (id mask : Ident) (s : State) : (accept k id mask s).cur = s.cur := rfl
@[simp] theorem accept_pq (k : MatcherOp) (id mask : Ident) (s : State) : (accept k id mask s).pq = s.pq := rfl
@[simp] theorem accept_dl (k : MatcherOp) (id mask : Ident) (s : State) : (accept k id mask s).dl = s.dl := rfl
@[simp] theorem accept_opId (k : MatcherOp) (id mask : Ident) (s : State) : (accept k id mask s).opId = id := rfl
@[simp] theorem accept_opMask (k : MatcherOp) (id mask : Ident) (s : State) : (accept k id mask s).opMask = mask := rfl
@[simp] theorem accept_op (k : MatcherOp) (id mask : Ident) (s : State) : (accept k id mask s).op = some k := rfl
@[simp] theorem accept_rsp (k : MatcherOp) (id mask : Ident) (s : State) : (accept k id mask s).rsp = s.rsp := rfl
@[simp] theorem accept_tq (k : MatcherOp) (id mask : Ident) (s : State) : (accept k id mask s).tq = s.tq := rfl
@[simp] theorem accept_sent (k : MatcherOp) (id mask : Ident) (s : State) : (accept k id mask s).sent = s.sent := rfl
@[simp] theorem accept_now (k : MatcherOp) (id mask : Ident) (s : State) : (accept k id mask s).now = s.now := rfl
@[simp] theorem accept_link (k : MatcherOp) (id mask : Ident) (s : State) : (accept k id mask s).link = s.link := rfl
@[simp] theorem accept_ticks (k : MatcherOp) (id mask : Ident) (s : State) : (accept k id mask s).ticks = s.ticks := rfl
@[simp] theorem accept_script (k : MatcherOp) (id mask : Ident) (s : State) : (accept k id mask s).script = s.script := rfl
@[simp] theorem accept_seq (k : MatcherOp) (id mask : Ident) (s : State) : (accept k id mask s).seq = s.seq := rfl
@[simp] theorem accept_plan (k : MatcherOp) (id mask : Ident) (s : State) : (accept k id mask s).plan = s.plan := rfl
@[simp] theorem accept_vars (k : MatcherOp) (id mask : Ident) (s : State) : (accept k id mask s).vars = s.vars := rfl
@[simp] theorem accept_waiting (k : MatcherOp) (id mask : Ident) (s : State) : (accept k id mask s).waiting = s.waiting := rfl
@[simp] theorem accept_role (k : MatcherOp) (id mask : Ident) (s : State) : (accept k id mask s).role = s.role := rfl
@[simp] theorem accept_handlerReturns (k : MatcherOp) (id mask : Ident) (s : State) : (accept k id mask s).handlerReturns = s.handlerReturns := rfl
@[simp] theorem accept_calls (k : MatcherOp) (id mask : Ident) (s : State) : (accept k id mask s).calls = s.calls := rfl
@[simp] theorem accept_results (k : MatcherOp) (id mask : Ident) (s : State) : (accept k id mask s).results = s.results := rfl
@[simp] theorem accept_params (k : MatcherOp) (id mask : Ident) (s : State) : (accept k id mask s).params = s.params := rfl

/-! ### finish -/

@[simp] theorem finish_buf (r : HostResult) (s : State) : (s.finish r).buf = s.buf := rfl
@[simp] theorem finish_cur (r : HostResult) (s : State) : (s.finish r).cur = s.cur := rfl
@[simp] theorem finish_pq (r : HostResult) (s : State) : (s.finish r).pq = s.pq := rfl
@[simp] theorem finish_dl (r : HostResult) (s : State) : (s.finish r).dl = s.dl := rfl
@[simp] theorem finish_opId (r : HostResult) (s : State) : (s.finish r).opId = s.opId := rfl
@[simp] theorem finish_opMask (r : HostResult) (s : State) : (s.finish r).opMask = s.opMask := rfl
@[simp] theorem finish_op (r : HostResult) (s : State) : (s.finish r).op = s.op := rfl
@[simp] theorem finish_rsp (r : HostResult) (s : State) : (s.finish r).rsp = s.rsp := rfl
@[simp] theorem finish_tq (r : HostResult) (s : State) : (s.finish r).tq = s.tq := rfl
@[simp] theorem finish_sent (r : HostResult) (s : State) : (s.finish r).sent = s.sent := rfl
@[simp] theorem finish_now (r : HostResult) (s : State) : (s.finish r).now = s.now := rfl
@[simp] theorem finish_link (r : HostResult) (s : State) : (s.finish r).link = s.link := rfl
@[simp] theorem finish_ticks (r : HostResult) (s : State) : (s.finish r).ticks = s.ticks := rfl
@[simp] theorem finish_script (r : HostResult) (s : State) : (s.finish r).script = s.script := rfl
@[simp] theorem finish_seq (r : HostResult) (s : State) : (s.finish r).seq = s.seq := rfl
@[simp] theorem finish_plan (r : HostResult) (s : State) : (s.finish r).plan = [] := rfl
@[simp] theorem finish_vars (r : HostResult) (s : State) : (s.finish r).vars = s.vars := rfl
@[simp] theorem finish_waiting (r : HostResult) (s : State) : (s.finish r).waiting = false := rfl
@[simp] theorem finish_role (r : HostResult) (s : State) : (s.finish r).role = s.role := rfl
@[simp] theorem finish_handlerReturns (r : HostResult) (s : State) : (s.finish r).handlerReturns = s.handlerReturns := rfl
@[simp] theorem finish_calls (r : HostResult) (s : State) : (s.finish r).calls = s.calls := rfl
@[simp] theorem finish_results (r : HostResult) (s : State) : (s.finish r).results = s.results ++ [r] := rfl
@[simp] theorem finish_params (r : HostResult) (s : State) : (s.finish r).params = s.params := rfl

/-! ### stopWaiting -/

@[simp] theorem stopWaiting_buf (s : State) : s.stopWaiting.buf = s.buf := rfl
@[simp] theorem stopWaiting_cur (s : State) : s.stopWaiting.cur = s.cur := rfl
@[simp] theorem stopWaiting_pq (s : State) : s.stopWaiting.pq = s.pq := rfl
@[simp] theorem stopWaiting_dl (s : State) : s.stopWaiting.dl = s.dl := rfl
@[simp] theorem stopWaiting_opId (s : State) : s.stopWaiting.opId = s.opId := rfl
@[simp] theorem stopWaiting_opMask (s : State) : s.stopWaiting.opMask = s.opMask := rfl
@[simp] theorem stopWaiting_op (s : State) : s.stopWaiting.op = s.op := rfl
@[simp] theorem stopWaiting_rsp (s : State) : s.stopWaiting.rsp = s.rsp := rfl
@[simp] theorem stopWaiting_tq (s : State) : s.stopWaiting.tq = s.tq := rfl
@[simp] theorem stopWaiting_sent (s : State) : s.stopWaiting.sent = s.sent := rfl
@[simp] theorem stopWaiting_now (s : State) : s.stopWaiting.now = s.now := rfl
@[simp] theorem stopWaiting_link (s : State) : s.stopWaiting.link = s.link := rfl
@[simp] theorem stopWaiting_ticks (s : State) : s.stopWaiting.ticks = s.ticks := rfl
@[simp] theorem stopWaiting_script (s : State) : s.stopWaiting.script = s.script := rfl
@[simp] theorem stopWaiting_seq (s : State) : s.stopWaiting.seq = s.seq := rfl
@[simp] theorem stopWaiting_plan (s : State) : s.stopWaiting.plan = [] := rfl
@[simp] theorem stopWaiting_vars (s : State) : s.stopWaiting.vars = s.vars := rfl
@[simp] theorem stopWaiting_waiting (s : State) : s.stopWaiting.waiting = false := rfl
@[simp] theorem stopWaiting_role (s : State) : s.stopWaiting.role = s.role := rfl
@[simp] theorem stopWaiting_handlerReturns (s : State) : s.stopWaiting.handlerReturns = s.handlerReturns := rfl
@[simp] theorem stopWaiting_calls (s : State) : s.stopWaiting.calls = s.calls := rfl
@[simp] theorem stopWaiting_results (s : State) : s.stopWaiting.results = s.results := rfl
@[simp] theorem stopWaiting_params (s : State) : s.stopWaiting.params = s.params := rfl

/-! ### await -/

@[simp] theorem await_buf (r : Role) (s : State) : (s.await r).buf = s.buf := rfl
@[simp] theorem await_cur (r : Role) (s : State) : (s.await r).cur = s.cur := rfl
@[simp] theorem await_pq (r : Role) (s : State) : (s.await r).pq = s.pq := rfl
@[simp] theorem await_dl (r : Role) (s : State) : (s.await r).dl = s.dl := rfl
@[simp] theorem await_opId (r : Role) (s : State) : (s.await r).opId = s.opId := rfl
@[simp] theorem await_opMask (r : Role) (s : State) : (s.await r).opMask = s.opMask := rfl
@[simp] theorem await_op (r : Role) (s : State) : (s.await r).op = s.op := rfl
@[simp] theorem await_rsp (r : Role) (s : State) : (s.await r).rsp = s.rsp := rfl
@[simp] theorem await_tq (r : Role) (s : State) : (s.await r).tq = s.tq := rfl
@[simp] theorem await_sent (r : Role) (s : State) : (s.await r).sent = s.sent := rfl
@[simp] theorem await_now (r : Role) (s : State) : (s.await r).now = s.now := rfl
@[simp] theorem await_link (r : Role) (s : State) : (s.await r).link = s.link := rfl
@[simp] theorem await_ticks (r : Role) (s : State) : (s.await r).ticks = s.ticks := rfl
@[simp] theorem await_script (r : Role) (s : State) : (s.await r).script = s.script := rfl
@[simp] theorem await_seq (r : Role) (s : State) : (s.await r).seq = s.seq := rfl
@[simp] theorem await_plan (r : Role) (s : State) : (s.await r).plan = s.plan := rfl
@[simp] theorem await_vars (r : Role) (s : State) : (s.await r).vars = s.vars := rfl
@[simp] theorem await_waiting (r : Role) (s : State) : (s.await r).waiting = true := rfl
@[simp] theorem await_role (r : Role) (s : State) : (s.await r).role = r := rfl
@[simp] theorem await_handlerReturns (r : Role) (s : State) : (s.await r).handlerReturns = s.handlerReturns := rfl
@[simp] theorem await_calls (r : Role) (s : State) : (s.await r).calls = s.calls := rfl
@[simp] theorem await_results (r : Role) (s : State) : (s.await r).results = s.results := rfl
@[simp] theorem await_params (r : Role) (s : State) : (s.await r).params = s.params := rfl

/-! ### callHandler -/

@[simp] theorem callHandler_buf (k : Slot) (s : State) : (s.callHandler k).buf = s.buf := rfl
@[simp] theorem callHandler_cur (k : Slot) (s : State) : (s.callHandler k).cur = s.cur := rfl
@[simp] theorem callHandler_pq (k : Slot) (s : State) : (s.callHandler k).pq = s.pq := rfl
@[simp] theorem callHandler_dl (k : Slot) (s : State) : (s.callHandler k).dl = s.dl := rfl
@[simp] theorem callHandler_opId (k : Slot) (s : State) : (s.callHandler k).opId = s.opId := rfl
@[simp] theorem callHandler_opMask (k : Slot) (s : State) : (s.callHandler k).opMask = s.opMask := rfl
@[simp] theorem callHandler_op (k : Slot) (s : State) : (s.callHandler k).op = s.op := rfl
@[simp] theorem callHandler_rsp (k : Slot) (s : State) : (s.callHandler k).rsp = s.rsp := rfl
@[simp] theorem callHandler_tq (k : Slot) (s : State) : (s.callHandler k).tq = s.tq := rfl
@[simp] theorem callHandler_sent (k : Slot) (s : State) : (s.callHandler k).sent = s.sent := rfl
@[simp] theorem callHandler_now (k : Slot) (s : State) : (s.callHandler k).now = s.now := rfl
@[simp] theorem callHandler_link (k : Slot) (s : State) : (s.callHandler k).link = s.link := rfl
@[simp] theorem callHandler_ticks (k : Slot) (s : State) : (s.callHandler k).ticks = s.ticks := rfl
@[simp] theorem callHandler_script (k : Slot) (s : State) : (s.callHandler k).script = s.script := rfl
@[simp] theorem callHandler_seq (k : Slot) (s : State) : (s.callHandler k).seq = s.seq := rfl
@[simp] theorem callHandler_plan (k : Slot) (s : State) : (s.callHandler k).plan = s.plan := rfl
@[simp] theorem callHandler_vars (k : Slot) (s : State) : (s.callHandler k).vars = { s.vars with q := if k.returns then s.nextReturn else 0 } := rfl
@[simp] theorem callHandler_waiting (k : Slot) (s : State) : (s.callHandler k).waiting = s.waiting := rfl
@[simp] theorem callHandler_role (k : Slot) (s : State) : (s.callHandler k).role = s.role := rfl
@[simp] theorem callHandler_handlerReturns (k : Slot) (s : State) : (s.callHandler k).handlerReturns = s.handlerReturns.tail := rfl
@[simp] theorem callHandler_calls (k : Slot) (s : State) : (s.callHandler k).calls = s.calls ++ [k.call s.vars] := rfl
@[simp] theorem callHandler_results (k : Slot) (s : State) : (s.callHandler k).results = s.results := rfl
@[simp] theorem callHandler_params (k : Slot) (s : State) : (s.callHandler k).params = s.params := rfl

/-! ### hardReset -/

@[simp] theorem hardReset_buf (s : State) : s.hardReset.buf = [] := rfl
@[simp] theorem hardReset_cur (s : State) : s.hardReset.cur = 0 := rfl
@[simp] theorem hardReset_pq (s : State) : s.hardReset.pq = [] := rfl
@[simp] theorem hardReset_dl (s : State) : s.hardReset.dl = 0 := rfl
@[simp] theorem hardReset_opId (s : State) : s.hardReset.opId = 0 := rfl
@[simp] theorem hardReset_opMask (s : State) : s.hardReset.opMask = 0 := rfl
@[simp] theorem hardReset_op (s : State) : s.hardReset.op = none := rfl
@[simp] theorem hardReset_rsp (s : State) : s.hardReset.rsp = s.rsp := rfl
@[simp] theorem hardReset_tq (s : State) : s.hardReset.tq = s.tq := rfl
@[simp] theorem hardReset_sent (s : State) : s.hardReset.sent = s.sent := rfl
@[simp] theorem hardReset_now (s : State) : s.hardReset.now = s.now := rfl
@[simp] theorem hardReset_link (s : State) : s.hardReset.link = s.link := rfl
@[simp] theorem hardReset_ticks (s : State) : s.hardReset.ticks = s.ticks := rfl
@[simp] theorem hardReset_script (s : State) : s.hardReset.script = s.script := rfl
@[simp] theorem hardReset_seq (s : State) : s.hardReset.seq = 0 := rfl
@[simp] theorem hardReset_plan (s : State) : s.hardReset.plan = [.resetMatcher] := rfl
@[simp] theorem hardReset_vars (s : State) : s.hardReset.vars = Vars.none := rfl
@[simp] theorem hardReset_waiting (s : State) : s.hardReset.waiting = false := rfl
@[simp] theorem hardReset_role (s : State) : s.hardReset.role = .request := rfl
@[simp] theorem hardReset_handlerReturns (s : State) : s.hardReset.handlerReturns = s.handlerReturns := rfl
@[simp] theorem hardReset_calls (s : State) : s.hardReset.calls = s.calls := rfl
@[simp] theorem hardReset_results (s : State) : s.hardReset.results = s.results := rfl
@[simp] theorem hardReset_params (s : State) : s.hardReset.params = s.params := rfl

/-! ### the response port -/

@[simp] theorem response_respond (r : Response) (s : State) : (respond r s).response = r := rfl
@[simp] theorem response_raise (e : Status) (s : State) : (raise e s).response = Response.error e := rfl
@[simp] theorem res0_respond (r : Response) (s : State) : (respond r s).res0 = r.res0 := rfl
@[simp] theorem res1_respond (r : Response) (s : State) : (respond r s).res1 = r.res1 := rfl
@[simp] theorem values_status (a b : Word32) : (Response.values a b).status = .ok := rfl
@[simp] theorem values_res0 (a b : Word32) : (Response.values a b).res0 = a := rfl
@[simp] theorem values_res1 (a b : Word32) : (Response.values a b).res1 = b := rfl
@[simp] theorem values_hit (a b : Word32) : (Response.values a b).hit = false := rfl
@[simp] theorem found_status (f : Frame) : (Response.found f).status = .ok := rfl
@[simp] theorem found_hit (f : Frame) : (Response.found f).hit = true := rfl
@[simp] theorem found_frame (f : Frame) : (Response.found f).frame = f := rfl
@[simp] theorem ok_status : Response.ok.status = .ok := rfl
@[simp] theorem ok_hit : Response.ok.hit = false := rfl
@[simp] theorem error_status (e : Status) : (Response.error e).status = e := rfl
@[simp] theorem error_hit (e : Status) : (Response.error e).hit = false := rfl

end Sys2Proof.Machine
end

