-- ==== Sys2Proof/Laws/Ops.lean ====
section
/-! SUPPORT. One specification lemma for each shared operation: all it can do, said once. -/

namespace Sys2Proof.Machine

/-! ### Search in the queue -/

/-- What a successful search says: the frame is the first that matches, and only it is removed. -/
theorem takeFirst_eq_some {id mask : Ident} {q q' : List Frame} {f : Frame}
    (h : takeFirst id mask q = some (f, q')) :
    ∃ l₁ l₂, q = l₁ ++ f :: l₂ ∧ q' = l₁ ++ l₂ ∧ f.isMatch id mask = true ∧
      ∀ g ∈ l₁, g.isMatch id mask = false := by
  induction q generalizing q' with
  | nil => simp [takeFirst] at h
  | cons g q ih =>
    simp only [takeFirst] at h
    split at h
    · rename_i hg
      simp only [Option.some.injEq, Prod.mk.injEq] at h
      obtain ⟨rfl, rfl⟩ := h
      exact ⟨[], q, rfl, rfl, hg, by simp⟩
    · rename_i hg
      split at h
      · simp at h
      · rename_i f' q'' hq
        simp only [Option.some.injEq, Prod.mk.injEq] at h
        obtain ⟨rfl, rfl⟩ := h
        obtain ⟨l₁, l₂, rfl, rfl, hf, hl⟩ := ih hq
        refine ⟨g :: l₁, l₂, rfl, rfl, hf, ?_⟩
        intro g' hg'
        rcases List.mem_cons.mp hg' with rfl | h'
        · simpa using hg
        · exact hl g' h'

/-- The search finds the first match. -/
theorem takeFirst_append {id mask : Ident} {l₁ l₂ : List Frame} {f : Frame}
    (h₁ : ∀ g ∈ l₁, g.isMatch id mask = false) (hf : f.isMatch id mask = true) :
    takeFirst id mask (l₁ ++ f :: l₂) = some (f, l₁ ++ l₂) := by
  induction l₁ with
  | nil => simp [takeFirst, hf]
  | cons g l₁ ih =>
    have hg := h₁ g (by simp)
    simp [takeFirst, hg, ih (fun g' hg' => h₁ g' (by simp [hg']))]

/-- The search fails exactly when no frame matches. -/
theorem takeFirst_eq_none {id mask : Ident} {q : List Frame} :
    takeFirst id mask q = none ↔ anyMatch id mask q = false := by
  constructor
  · intro h
    by_contra hc
    simp only [Bool.not_eq_false, anyMatch, List.any_eq_true] at hc
    obtain ⟨f, hf, hm⟩ := hc
    induction q with
    | nil => simp at hf
    | cons g q ih =>
      simp only [takeFirst] at h
      split at h
      · simp at h
      · rename_i hg
        split at h
        · rename_i hq
          rcases List.mem_cons.mp hf with rfl | h'
          · exact hg hm
          · exact ih hq h'
        · simp at h
  · intro h
    cases ht : takeFirst id mask q with
    | none => rfl
    | some p =>
      obtain ⟨f, q'⟩ := p
      obtain ⟨l₁, l₂, rfl, -, hf, -⟩ := takeFirst_eq_some ht
      simp [anyMatch, hf] at h

@[simp] theorem canon_isMatch (f : Frame) (id mask : Ident) :
    f.canon.isMatch id mask = f.isMatch id mask := rfl

@[simp] theorem canon_canonical (f : Frame) : f.canon.canonical = true := by
  simp [Frame.canon, Frame.canonical, maskBytes_maskBytes]

/-! ### The transport's calls -/

/-- Everything `recv` can do: refuse for want of room, fail, block, or take the head of the backlog in. -/
theorem recv_cases (s : State) :
    (s.queueFull = true ∧ recv s = .error .queueFull) ∨
    (s.queueFull = false ∧ s.link.readFails = true ∧ recv s = .error .transportError) ∨
    (s.queueFull = false ∧ s.link.readFails = false ∧ s.tq = [] ∧ recv s = .ok none) ∨
    (∃ f q, s.queueFull = false ∧ s.link.readFails = false ∧ s.tq = f :: q ∧
      recv s = .ok (some (f.canon, { s with tq := q }))) := by
  unfold recv transportRead
  cases s.queueFull <;> cases s.link.readFails <;> cases s.tq <;> simp

/-- Everything `TransportAvail` can do. -/
theorem transportAvail_cases (s : State) :
    (s.link.availFails = true ∧ transportAvail s = .error .transportError) ∨
    (s.link.availFails = false ∧ s.tq = [] ∧ transportAvail s = .ok false) ∨
    (∃ f q, s.link.availFails = false ∧ s.tq = f :: q ∧ transportAvail s = .ok true) := by
  unfold transportAvail
  cases s.link.availFails <;> cases s.tq <;> simp

/-- Everything an append can do (R121). -/
theorem appendOp_cases (n : Nat) (v : Payload) (s : State) :
    (s.cur.toNat + n > bufBytes ∧ appendOp n v s = raise .outOfRange s) ∨
    (s.cur.toNat + n ≤ bufBytes ∧ appendOp n v s = respond Response.ok
      { s with buf := Memory.writeN s.buf s.cur.toNat n v, cur := BitVec.ofNat 4 (s.cur.toNat + n) }) := by
  unfold appendOp
  by_cases h : s.cur.toNat + n > bufBytes
  · exact Or.inl ⟨h, if_pos h⟩
  · exact Or.inr ⟨by omega, if_neg h⟩

/-- Everything `PUTBUF` can do (R133). -/
theorem putBufOp_cases (n : Nat) (v : Payload) (s : State) :
    (n > bufBytes ∧ putBufOp n v s = raise .outOfRange s) ∨
    (n ≤ bufBytes ∧ putBufOp n v s = respond Response.ok { s with buf := Memory.writeN s.buf 0 n v }) := by
  unfold putBufOp
  by_cases h : n > bufBytes
  · exact Or.inl ⟨h, if_pos h⟩
  · exact Or.inr ⟨by omega, if_neg h⟩

/-- The frame that `SENDF` hands over (R177). -/
def sentFrame (id : Ident) (len : Nat) (s : State) : Frame :=
  Frame.canon { id := id, len := Fin.ofNat 9 len, data := Memory.readN s.buf 0 bufBytes }

/-- Everything `SENDF` can do (R177). -/
theorem sendOp_cases (id : Ident) (len : Nat) (s : State) :
    (len > bufBytes ∧ sendOp id len s = raise .outOfRange s) ∨
    (len ≤ bufBytes ∧ s.link.writeFails = true ∧ sendOp id len s = raise .transportError s) ∨
    (len ≤ bufBytes ∧ s.link.writeFails = false ∧
      sendOp id len s = respond Response.ok { s with sent := s.sent ++ [sentFrame id len s] }) := by
  unfold sendOp transportWrite sentFrame
  by_cases h : len > bufBytes
  · exact Or.inl ⟨h, if_pos h⟩
  · rw [if_neg h]
    cases s.link.writeFails
    · exact Or.inr (Or.inr ⟨by omega, rfl, rfl⟩)
    · exact Or.inr (Or.inl ⟨by omega, rfl, rfl⟩)

/-! ### The matcher's iterations -/

/-- Everything `TRYTAKE` can do (R152). -/
theorem tryTakeOp_cases (id mask : Ident) (s : State) :
    (∃ f q, takeFirst id mask s.pq = some (f, q) ∧
      tryTakeOp id mask s = respondFound f { s with pq := q }) ∨
    (takeFirst id mask s.pq = none ∧ tryTakeOp id mask s = respond Response.ok s) := by
  unfold tryTakeOp
  cases h : takeFirst id mask s.pq with
  | none => exact Or.inr ⟨rfl, rfl⟩
  | some p => exact Or.inl ⟨p.1, p.2, rfl, rfl⟩

/-- Everything an iteration of `READM` can do (R153). -/
theorem iterReadM_cases (s : State) :
    (s.queueFull = true ∧ iterReadM s = raise .queueFull s) ∨
    (s.queueFull = false ∧ s.link.readFails = true ∧ iterReadM s = raise .transportError s) ∨
    (s.queueFull = false ∧ s.link.readFails = false ∧ s.tq = [] ∧ iterReadM s = s) ∨
    (∃ f q, s.tq = f :: q ∧ s.queueFull = false ∧ f.isMatch s.opId s.opMask = true ∧
      iterReadM s = respondFound f.canon { s with tq := q }) ∨
    (∃ f q, s.tq = f :: q ∧ s.queueFull = false ∧ f.isMatch s.opId s.opMask = false ∧
      iterReadM s = State.enqueue f.canon { s with tq := q }) := by
  unfold iterReadM
  rcases recv_cases s with ⟨h1, h⟩ | ⟨h1, h2, h⟩ | ⟨h1, h2, h3, h⟩ | ⟨f, q, hq, -, ht, h⟩
  · exact Or.inl ⟨h1, by rw [h]⟩
  · exact Or.inr (Or.inl ⟨h1, h2, by rw [h]⟩)
  · exact Or.inr (Or.inr (Or.inl ⟨h1, h2, h3, by rw [h]⟩))
  · rw [h]
    by_cases hm : f.isMatch s.opId s.opMask = true
    · exact Or.inr (Or.inr (Or.inr (Or.inl ⟨f, q, ht, hq, hm, by simp [hm]⟩)))
    · exact Or.inr (Or.inr (Or.inr (Or.inr ⟨f, q, ht, hq, by simpa using hm, by simp [hm]⟩)))

/-- Everything the deadline test can do (R155). -/
theorem deadlineTest_cases (s : State) :
    (s.dl ≤ s.now + s.link.lag ∧
      deadlineTest s = respond Response.ok { s with now := s.now + s.link.lag }) ∨
    (s.now + s.link.lag < s.dl ∧ deadlineTest s = { s with now := s.now + s.link.lag }) := by
  unfold deadlineTest
  by_cases h : s.dl ≤ s.now + s.link.lag
  · exact Or.inl ⟨h, if_pos h⟩
  · exact Or.inr ⟨by omega, if_neg h⟩

/-- Everything an iteration of `READMT` can do (R154). -/
theorem iterReadMT_cases (s : State) :
    (∃ f q, takeFirst s.opId s.opMask s.pq = some (f, q) ∧
      iterReadMT s = respondFound f { s with pq := q }) ∨
    (takeFirst s.opId s.opMask s.pq = none ∧
      ((s.link.availFails = true ∧ iterReadMT s = raise .transportError s) ∨
      (s.link.availFails = false ∧ s.tq = [] ∧ iterReadMT s = deadlineTest s) ∨
      (s.tq ≠ [] ∧ s.queueFull = true ∧ iterReadMT s = raise .queueFull s) ∨
      (s.tq ≠ [] ∧ s.queueFull = false ∧ s.link.readFails = true ∧
        iterReadMT s = raise .transportError s) ∨
      (∃ f q, s.tq = f :: q ∧ s.queueFull = false ∧ f.isMatch s.opId s.opMask = true ∧
        iterReadMT s = respondFound f.canon { s with tq := q }) ∨
      (∃ f q, s.tq = f :: q ∧ s.queueFull = false ∧ f.isMatch s.opId s.opMask = false ∧
        iterReadMT s = deadlineTest (State.enqueue f.canon { s with tq := q })))) := by
  unfold iterReadMT
  cases hT : takeFirst s.opId s.opMask s.pq with
  | some p => exact Or.inl ⟨p.1, p.2, rfl, rfl⟩
  | none =>
    refine Or.inr ⟨rfl, ?_⟩
    rcases transportAvail_cases s with ⟨h1, ha⟩ | ⟨h1, h2, ha⟩ | ⟨f', q', -, ht', ha⟩
    · exact Or.inl ⟨h1, by rw [ha]⟩
    · exact Or.inr (Or.inl ⟨h1, h2, by rw [ha]⟩)
    · rw [ha]
      rcases recv_cases s with ⟨h1, h⟩ | ⟨h1, h2, h⟩ | ⟨-, -, h3, -⟩ | ⟨f, q, hq, -, ht, h⟩
      · exact Or.inr (Or.inr (Or.inl ⟨by simp [ht'], h1, by rw [h]⟩))
      · exact Or.inr (Or.inr (Or.inr (Or.inl ⟨by simp [ht'], h1, h2, by rw [h]⟩)))
      · simp [ht'] at h3
      · rw [h]
        by_cases hm : f.isMatch s.opId s.opMask = true
        · exact Or.inr (Or.inr (Or.inr (Or.inr (Or.inl ⟨f, q, ht, hq, hm, by simp [hm]⟩))))
        · exact Or.inr (Or.inr (Or.inr (Or.inr (Or.inr ⟨f, q, ht, hq, by simpa using hm,
            by simp [hm]⟩))))

/-- Everything an iteration of `AVAILM`'s drain can do (R156). -/
theorem iterAvailM_cases (s : State) :
    (s.link.availFails = true ∧ iterAvailM s = raise .transportError s) ∨
    (s.tq ≠ [] ∧ s.queueFull = true ∧ iterAvailM s = raise .queueFull s) ∨
    (s.tq ≠ [] ∧ s.queueFull = false ∧ s.link.readFails = true ∧
      iterAvailM s = raise .transportError s) ∨
    (s.tq = [] ∧ iterAvailM s =
      respond (Response.values (if anyMatch s.opId s.opMask s.pq then 1 else 0) 0) s) ∨
    (∃ f q, s.tq = f :: q ∧ s.queueFull = false ∧
      iterAvailM s = State.enqueue f.canon { s with tq := q }) := by
  unfold iterAvailM
  rcases transportAvail_cases s with ⟨h1, ha⟩ | ⟨-, ht, ha⟩ | ⟨f', q', -, ht', ha⟩
  · exact Or.inl ⟨h1, by rw [ha]⟩
  · exact Or.inr (Or.inr (Or.inr (Or.inl ⟨ht, by rw [ha]⟩)))
  · rw [ha]
    rcases recv_cases s with ⟨h1, h⟩ | ⟨h1, h2, h⟩ | ⟨-, -, h3, -⟩ | ⟨f, q, hq, -, ht, h⟩
    · exact Or.inr (Or.inl ⟨by simp [ht'], h1, by rw [h]⟩)
    · exact Or.inr (Or.inr (Or.inl ⟨by simp [ht'], h1, h2, by rw [h]⟩))
    · simp [ht'] at h3
    · exact Or.inr (Or.inr (Or.inr (Or.inr ⟨f, q, ht, hq, by rw [h]⟩)))

/-- Everything an iteration of `MRESET`'s flush can do (R157). -/
theorem iterMReset_cases (s : State) :
    iterMReset s = raise .transportError s ∨
    (s.params.offersFlush = true ∧ s.link.flushFails = true ∧
      iterMReset s = raise .transportError { s with tq := s.link.flushLeaves }) ∨
    (s.params.offersFlush = true ∧ s.link.flushFails = false ∧
      iterMReset s = respond Response.ok { s with tq := [] }) ∨
    (s.params.offersFlush = false ∧ s.link.availFails = false ∧ s.tq = [] ∧
      iterMReset s = respond Response.ok s) ∨
    (∃ f q, s.params.offersFlush = false ∧ s.link.availFails = false ∧ s.link.readFails = false ∧
      s.tq = f :: q ∧ iterMReset s = { s with tq := q }) := by
  unfold iterMReset transportFlush transportRead
  cases hF : s.params.offersFlush
  · rcases transportAvail_cases s with ⟨-, ha⟩ | ⟨h1, ht, ha⟩ | ⟨f, q, h1, ht, ha⟩
    · exact Or.inl (by rw [ha]; rfl)
    · exact Or.inr (Or.inr (Or.inr (Or.inl ⟨rfl, h1, ht, by rw [ha]; rfl⟩)))
    · rw [ha]
      cases hr : s.link.readFails
      · exact Or.inr (Or.inr (Or.inr (Or.inr ⟨f, q, rfl, h1, rfl, ht, by simp [ht]⟩)))
      · exact Or.inl (by simp)
  · cases s.link.flushFails
    · exact Or.inr (Or.inr (Or.inl ⟨rfl, rfl, rfl⟩))
    · exact Or.inr (Or.inl ⟨rfl, rfl, rfl⟩)

/-! ### The environment's move leaves everything but its own inputs alone -/

/-- Everything the environment's move can do (R59). -/
theorem advance_cases (s : State) :
    (s.ticks = [] ∧ s.advance = { s with link := Link.quiet }) ∨
    (∃ k ts, s.ticks = k :: ts ∧ s.advance =
      { s with now := s.now + k.elapsed, tq := s.tq ++ k.arrivals, link := k.link, ticks := ts }) := by
  unfold State.advance
  cases s.ticks with
  | nil => exact Or.inl ⟨rfl, rfl⟩
  | cons k ts => exact Or.inr ⟨k, ts, rfl, rfl⟩

@[simp] theorem advance_buf (s : State) : s.advance.buf = s.buf := by unfold State.advance; split <;> rfl
@[simp] theorem advance_cur (s : State) : s.advance.cur = s.cur := by unfold State.advance; split <;> rfl
@[simp] theorem advance_pq (s : State) : s.advance.pq = s.pq := by unfold State.advance; split <;> rfl
@[simp] theorem advance_dl (s : State) : s.advance.dl = s.dl := by unfold State.advance; split <;> rfl
@[simp] theorem advance_opId (s : State) : s.advance.opId = s.opId := by
  unfold State.advance; split <;> rfl
@[simp] theorem advance_opMask (s : State) : s.advance.opMask = s.opMask := by
  unfold State.advance; split <;> rfl
@[simp] theorem advance_op (s : State) : s.advance.op = s.op := by unfold State.advance; split <;> rfl
@[simp] theorem advance_rsp (s : State) : s.advance.rsp = s.rsp := by unfold State.advance; split <;> rfl
@[simp] theorem advance_sent (s : State) : s.advance.sent = s.sent := by
  unfold State.advance; split <;> rfl
@[simp] theorem advance_script (s : State) : s.advance.script = s.script := by
  unfold State.advance; split <;> rfl
@[simp] theorem advance_seq (s : State) : s.advance.seq = s.seq := by unfold State.advance; split <;> rfl
@[simp] theorem advance_plan (s : State) : s.advance.plan = s.plan := by unfold State.advance; split <;> rfl
@[simp] theorem advance_vars (s : State) : s.advance.vars = s.vars := by unfold State.advance; split <;> rfl
@[simp] theorem advance_waiting (s : State) : s.advance.waiting = s.waiting := by
  unfold State.advance; split <;> rfl
@[simp] theorem advance_role (s : State) : s.advance.role = s.role := by
  unfold State.advance; split <;> rfl
@[simp] theorem advance_handlerReturns (s : State) : s.advance.handlerReturns = s.handlerReturns := by
  unfold State.advance; split <;> rfl
@[simp] theorem advance_calls (s : State) : s.advance.calls = s.calls := by
  unfold State.advance; split <;> rfl
@[simp] theorem advance_results (s : State) : s.advance.results = s.results := by
  unfold State.advance; split <;> rfl
@[simp] theorem advance_params (s : State) : s.advance.params = s.params := by
  unfold State.advance; split <;> rfl
@[simp] theorem advance_response (s : State) : s.advance.response = s.response := by
  unfold State.response; rw [advance_rsp]
@[simp] theorem advance_res0 (s : State) : s.advance.res0 = s.res0 := by
  unfold State.res0; rw [advance_response]

end Sys2Proof.Machine
end

