-- ==== Sys2Proof/Laws/Host.lean ====
section
/-! SUPPORT. The buffer and the frames of an envelope: what a loaded frame's buffer reads as, what a built
header and float send, and the fields of an envelope's payload. -/

namespace Sys2Proof.Machine

/-! ### The buffer after a frame is loaded -/

/-- The buffer after `CLEAR` and `PUTBUF` of the first `n` bytes of `v`. -/
abbrev frameBuffer (n : Nat) (v : Payload) : Memory := Memory.writeN [] 0 n v

theorem frameBuffer_wf {n : Nat} (v : Payload) (hn : n ≤ 8) : (frameBuffer n v).wf = true :=
  writeN_wf (by simp only [bufBytes]; omega) rfl

/-- Every address of a loaded buffer reads as the canonical payload's byte. -/
theorem read_frameBuffer {n : Nat} (v : Payload) (a : Nat) (hn : n ≤ 8) :
    Memory.read (frameBuffer n v) a = byteOf (maskBytes n v) a := by
  rw [byteOf_maskBytes]
  by_cases h : a < n
  · have := read_writeN_inside (v := v) (m := []) h (a := 0) (by simp only [bufBytes]; omega) rfl
    rw [if_pos h, ← this, Nat.zero_add]
  · rw [if_neg h, frameBuffer, read_writeN_outside (Or.inr (by omega))]
    rfl

/-- An `n`-byte read of a buffer that reads as the payload `d` is a slice of `d`. -/
theorem readN_slice {m : Memory} {d : Payload} (hm : ∀ k, k < 8 → Memory.read m k = byteOf d k) {a n : Nat}
    (h : a + n ≤ 8) : Memory.readN m a n = (d.extractLsb' (8 * a) (8 * n)).setWidth 64 := by
  apply payload_ext
  intro k hk
  rw [byteOf_readN (by omega)]
  by_cases hkn : k < n
  · rw [if_pos hkn, Memory.readPast, if_pos (by simp only [bufBytes]; omega), hm _ (by omega)]
    apply BitVec.eq_of_getLsbD_eq
    intro i hi
    simp [byteOf, hi, show 8 * (a + k) + i = 8 * a + (8 * k + i) by omega,
      show 8 * k + i < 64 by omega, show 8 * k + i < 8 * n by omega]
  · rw [if_neg hkn]
    apply BitVec.eq_of_getLsbD_eq
    intro i hi
    simp [byteOf, hi, show ¬ 8 * k + i < 8 * n by omega]

/-- `GETU8` at an address of the buffer. -/
theorem getU8Op_eq {d : Payload} {s : State} (hm : ∀ k, k < 8 → Memory.read s.buf k = byteOf d k)
    (hc : s.cur.toNat < 8) :
    getU8Op s = { s with cur := BitVec.ofNat 4 (s.cur.toNat + 1), op := none
                         rsp := Response.values ((byteOf d s.cur.toNat).setWidth 32) 0 :: s.rsp } := by
  rw [getU8Op, readOp, readN_slice hm (by omega), show min (s.cur.toNat + 1) bufBytes = s.cur.toNat + 1 by
    simp only [bufBytes]; omega]
  have : ((d.extractLsb' (8 * s.cur.toNat) (8 * 1)).setWidth 64).setWidth 32 =
      (byteOf d s.cur.toNat).setWidth 32 := by
    apply BitVec.eq_of_getLsbD_eq
    intro i hi
    simp [byteOf, hi]
  rw [this]
  rfl

/-- `GETFLOAT` with four bytes left. -/
theorem getFloatOp_eq {d : Payload} {s : State} (hm : ∀ k, k < 8 → Memory.read s.buf k = byteOf d k)
    (hc : s.cur.toNat + 4 ≤ 8) :
    getFloatOp s = { s with cur := BitVec.ofNat 4 (s.cur.toNat + 4), op := none
                            rsp := Response.values (d.extractLsb' (8 * s.cur.toNat) 32) 0 :: s.rsp } := by
  rw [getFloatOp, readOp, readN_slice hm (by omega), show min (s.cur.toNat + 4) bufBytes = s.cur.toNat + 4 by
    simp only [bufBytes]; omega]
  have : ((d.extractLsb' (8 * s.cur.toNat) (8 * 4)).setWidth 64).setWidth 32 =
      d.extractLsb' (8 * s.cur.toNat) 32 := by
    apply BitVec.eq_of_getLsbD_eq
    intro i hi
    simp [hi]
  rw [this]
  rfl

/-! ### Building and sending an envelope -/

/-- An append that fits (R121). -/
theorem appendOp_eq {n : Nat} {v : Payload} {s : State} (h : s.cur.toNat + n ≤ 8) :
    appendOp n v s = { s with buf := Memory.writeN s.buf s.cur.toNat n v
                              cur := BitVec.ofNat 4 (s.cur.toNat + n), op := none
                              rsp := Response.ok :: s.rsp } := by
  rw [appendOp, if_neg (by simp only [bufBytes]; omega)]
  rfl

/-- The buffer of a header: byte0 and byte1 (R194). -/
abbrev headerBuffer (b0 b1 : Word32) : Memory :=
  Memory.writeN (Memory.writeN [] 0 1 (u8Operand b0)) 1 1 (u8Operand b1)

/-- The buffer of an envelope with a float in bytes 2 to 5 (R84). -/
abbrev floatBuffer (b0 b1 q : Word32) : Memory := Memory.writeN (headerBuffer b0 b1) 2 4 (floatOperand q)

/-- The payload of an envelope by its header bytes and float (R84). -/
abbrev envelopePayload (b0 b1 : Byte) (q : Word32) : Payload := (0 : BitVec 16) ++ q ++ b1 ++ b0

theorem byteOf_u8Operand (b : Word32) : byteOf (u8Operand b) 0 = b.setWidth 8 := by
  apply BitVec.eq_of_getLsbD_eq
  intro i hi
  simp [byteOf, u8Operand, hi, show i < 64 by omega]

theorem headerBuffer_wf (b0 b1 : Word32) : (headerBuffer b0 b1).wf = true :=
  writeN_wf (by decide) (writeN_wf (by decide) rfl)

theorem floatBuffer_wf (b0 b1 q : Word32) : (floatBuffer b0 b1 q).wf = true :=
  writeN_wf (by decide) (headerBuffer_wf b0 b1)

/-- The bytes of an envelope's payload. -/
theorem byteOf_envelopePayload (b0 b1 : Byte) (q : Word32) (k : Nat) :
    byteOf (envelopePayload b0 b1 q) k =
      if k = 0 then b0 else if k = 1 then b1 else if k < 6 then byteOf (floatOperand q) (k - 2) else 0 := by
  apply BitVec.eq_of_getLsbD_eq
  intro i hi
  simp only [byteOf, envelopePayload, floatOperand, BitVec.getLsbD_extractLsb', BitVec.getLsbD_append]
  by_cases h0 : k = 0
  · simp [h0, hi]
  by_cases h1 : k = 1
  · simp [h1, hi]
  by_cases h6 : k < 6
  · simp [h0, h1, h6, hi, show ¬ 8 * k + i < 8 by omega, show ¬ 8 * k + i - 8 < 8 by omega,
      show 8 * k + i - 8 - 8 < 32 by omega,
      show 8 * (k - 2) + i = 8 * k + i - 8 - 8 by omega]
    omega
  · simp [h0, h1, h6, hi, show ¬ 8 * k + i < 8 by omega, show ¬ 8 * k + i - 8 < 8 by omega,
      show ¬ 8 * k + i - 8 - 8 < 32 by omega]

/-- A header's buffer reads as the envelope without a float. -/
theorem read_headerBuffer (b0 b1 : Word32) (a : Nat) :
    Memory.read (headerBuffer b0 b1) a = byteOf (envelopePayload (b0.setWidth 8) (b1.setWidth 8) 0) a := by
  rw [byteOf_envelopePayload]
  by_cases h0 : a = 0
  · subst h0
    rw [if_pos rfl, headerBuffer, read_writeN_outside (Or.inl (by omega))]
    have := read_writeN_inside (v := u8Operand b0) (m := []) (show 0 < 1 by omega) (a := 0) (by decide) rfl
    rw [Nat.zero_add] at this
    rw [this, byteOf_u8Operand]
  by_cases h1 : a = 1
  · subst h1
    rw [if_neg (by omega), if_pos rfl]
    have := read_writeN_inside (v := u8Operand b1) (m := Memory.writeN [] 0 1 (u8Operand b0))
      (show 0 < 1 by omega) (a := 1) (by decide) (writeN_wf (by decide) rfl)
    rw [this, byteOf_u8Operand]
  · rw [if_neg h0, if_neg h1, headerBuffer, read_writeN_outside (Or.inr (by omega)),
      read_writeN_outside (Or.inr (by omega))]
    by_cases h6 : a < 6
    · rw [if_pos h6]
      apply BitVec.eq_of_getLsbD_eq
      intro i hi
      simp [Memory.read, unlistedByte, byteOf, floatOperand]
    · rw [if_neg h6]; rfl

/-- A built envelope's buffer reads as its payload. -/
theorem read_floatBuffer (b0 b1 q : Word32) (a : Nat) :
    Memory.read (floatBuffer b0 b1 q) a = byteOf (envelopePayload (b0.setWidth 8) (b1.setWidth 8) q) a := by
  rw [byteOf_envelopePayload]
  by_cases h : 2 ≤ a ∧ a < 6
  · have := read_writeN_inside (v := floatOperand q) (m := headerBuffer b0 b1) (show a - 2 < 4 by omega)
      (a := 2) (by decide) (headerBuffer_wf b0 b1)
    rw [show 2 + (a - 2) = a by omega] at this
    rw [this, if_neg (by omega), if_neg (by omega), if_pos h.2]
  · rw [floatBuffer, read_writeN_outside (by omega), read_headerBuffer, byteOf_envelopePayload]
    by_cases h0 : a = 0
    · simp [h0]
    by_cases h1 : a = 1
    · simp [h1]
    · rw [if_neg h0, if_neg h1, if_neg h0, if_neg h1, if_neg (by omega), if_neg (by omega)]

/-- The frame that `SENDF` of an envelope's buffer hands over: its first `n` bytes (R177). -/
theorem sentFrame_eq {m : Memory} {d : Payload} {s : State} (hm : s.buf = m)
    (hd : ∀ k, k < 8 → Memory.read m k = byteOf d k) (id : Ident) (n : Nat) :
    sentFrame id n s = { id := id, len := Fin.ofNat 9 n, data := maskBytes (Fin.ofNat 9 n) d } := by
  have : Memory.readN s.buf 0 bufBytes = d := by
    rw [hm]
    apply payload_ext
    intro k hk
    rw [byteOf_readN (by simp [bufBytes]), if_pos (by simpa [bufBytes] using hk), Memory.readPast,
      if_pos (by simp only [bufBytes]; omega), Nat.zero_add, hd k hk]
  rw [sentFrame, this]
  rfl

/-- A six-byte envelope is canonical. -/
theorem maskBytes_envelopePayload (b0 b1 : Byte) (q : Word32) :
    maskBytes 6 (envelopePayload b0 b1 q) = envelopePayload b0 b1 q := by
  apply payload_ext
  intro k hk
  rw [byteOf_maskBytes]
  by_cases h : k < 6
  · rw [if_pos h]
  · rw [if_neg h, byteOf_envelopePayload, if_neg (by omega), if_neg (by omega), if_neg h]

/-- A header is the whole of a two-byte envelope. -/
theorem maskBytes_header (b0 b1 : Byte) (q : Word32) :
    maskBytes 2 (envelopePayload b0 b1 q) = envelopePayload b0 b1 0 := by
  apply payload_ext
  intro k hk
  rw [byteOf_maskBytes, byteOf_envelopePayload, byteOf_envelopePayload]
  by_cases h : k < 2
  · have : k = 0 ∨ k = 1 := by omega
    rcases this with rfl | rfl <;> simp
  · rw [if_neg h, if_neg (by omega), if_neg (by omega)]
    by_cases h6 : k < 6
    · rw [if_pos h6]
      apply BitVec.eq_of_getLsbD_eq
      intro i hi
      simp [byteOf, floatOperand]
    · rw [if_neg h6]

/-- The frame of a built envelope with its float. -/
theorem sentFrame_float {b0 b1 q : Word32} {s : State} (h : s.buf = floatBuffer b0 b1 q) (id : Ident) :
    sentFrame id 6 s =
      { id := id, len := 6, data := envelopePayload (b0.setWidth 8) (b1.setWidth 8) q } := by
  rw [sentFrame_eq h (fun k _ => read_floatBuffer b0 b1 q k)]
  exact congrArg (Frame.mk id 6) (maskBytes_envelopePayload _ _ q)

/-- The frame of a built header. -/
theorem sentFrame_header {b0 b1 : Word32} {s : State} (h : s.buf = headerBuffer b0 b1) (id : Ident) :
    sentFrame id 2 s =
      { id := id, len := 2, data := envelopePayload (b0.setWidth 8) (b1.setWidth 8) 0 } := by
  rw [sentFrame_eq h (fun k _ => read_headerBuffer b0 b1 k)]
  exact congrArg (Frame.mk id 2) (maskBytes_header _ _ 0)

/-- `PACK` of two addresses held as operands. -/
theorem packIdent_address (a : BitVec 16) (b : BitVec 6) :
    ((packIdent a (b.setWidth 16)).setWidth 32).setWidth 12 = a.extractLsb' 0 6 ++ b := by
  apply BitVec.eq_of_getLsbD_eq
  intro i hi
  simp only [packIdent, BitVec.getLsbD_setWidth, BitVec.getLsbD_append, BitVec.getLsbD_extractLsb']
  by_cases h : i < 6
  · simp [h, hi, show i < 32 by omega, show i < 16 by omega]
  · simp [h, hi, show i < 32 by omega]

theorem unpackNibOp_eq (b : Byte) (s : State) : unpackNibOp (b.setWidth 32) s = { s with
    op := none, rsp := Response.values ((highNibble b).setWidth 32) ((lowNibble b).setWidth 32) :: s.rsp } := by
  have : (b.setWidth 32).setWidth 8 = b := by
    apply BitVec.eq_of_getLsbD_eq; intro i hi; simp [hi]
  rw [unpackNibOp, this]
  rfl

theorem nibble_roundtrip (b : Nibble) : (b.setWidth 32).setWidth 4 = b := by
  apply BitVec.eq_of_getLsbD_eq
  intro i hi
  simp [hi]

/-! ### Packing -/

theorem packNibOp_eq (a b : BitVec 16) (s : State) : packNibOp a b s = { s with
    op := none, rsp := Response.values ((packNibbles a b).setWidth 32) 0 :: s.rsp } := rfl

theorem packOp_eq (a b : BitVec 16) (s : State) : packOp a b s = { s with
    op := none, rsp := Response.values ((packIdent a b).setWidth 32) 0 :: s.rsp } := rfl

theorem res0_packNibOp (a b : BitVec 16) (s : State) : (packNibOp a b s).res0 = (packNibbles a b).setWidth 32 :=
  rfl

theorem res0_packOp (a b : BitVec 16) (s : State) : (packOp a b s).res0 = (packIdent a b).setWidth 32 := rfl

theorem byte_roundtrip (b : Byte) : (b.setWidth 32).setWidth 8 = b := by
  apply BitVec.eq_of_getLsbD_eq
  intro i hi
  simp [hi]

/-- The float appended after the header. -/
theorem addFloatOp_header {b0 b1 : Word32} (q : Word32) {s : State} (hb : s.buf = headerBuffer b0 b1)
    (hc : s.cur = 2) :
    addFloatOp q s = { s with
      buf := floatBuffer b0 b1 q, cur := 6, op := none, rsp := Response.ok :: s.rsp } := by
  rw [addFloatOp, appendOp_eq (by rw [hc]; decide), hb, hc]
  rfl

/-! ### The fields of an envelope's payload -/

theorem byteOf_one_envelopeData (c : Nibble) (e : Envelope) :
    byteOf (envelopeData c e) 1 = e.target ++ e.flags := by
  apply BitVec.eq_of_getLsbD_eq
  intro i hi
  simp only [byteOf, envelopeData, BitVec.getLsbD_extractLsb', BitVec.getLsbD_append]
  by_cases h : i < 4
  · simp [hi, h, show 8 * 1 + i - 4 - 4 = i by omega, show ¬ 8 * 1 + i < 4 by omega,
      show ¬ 8 * 1 + i - 4 < 4 by omega]
  · simp [hi, h, show 8 * 1 + i - 4 - 4 = i by omega, show ¬ 8 * 1 + i < 4 by omega,
      show ¬ 8 * 1 + i - 4 < 4 by omega, show i - 4 < 4 by omega]

theorem byteOf_zero_envelopeData (c : Nibble) (e : Envelope) : byteOf (envelopeData c e) 0 = c ++ e.seq := by
  apply BitVec.eq_of_getLsbD_eq
  intro i hi
  simp only [byteOf, envelopeData, BitVec.getLsbD_extractLsb', BitVec.getLsbD_append]
  by_cases h : i < 4
  · simp [hi, h]
  · simp [hi, h, show i - 4 < 4 by omega]

theorem float_envelopeData (c : Nibble) (e : Envelope) : (envelopeData c e).extractLsb' 16 32 = e.value := by
  apply BitVec.eq_of_getLsbD_eq
  intro i hi
  simp only [envelopeData, BitVec.getLsbD_extractLsb', BitVec.getLsbD_append]
  simp [hi, show ¬ 16 + i < 4 by omega, show ¬ 16 + i - 4 < 4 by omega, show ¬ 16 + i - 4 - 4 < 4 by omega,
    show ¬ 16 + i - 4 - 4 - 4 < 4 by omega, show 16 + i - 4 - 4 - 4 - 4 = i by omega]

theorem highNibble_append (a b : Nibble) : highNibble (a ++ b) = a := by
  apply BitVec.eq_of_getLsbD_eq
  intro i hi
  have := BitVec.getLsbD_append (x := a) (y := b) (i := 4 + i)
  simp only [highNibble, BitVec.getLsbD_extractLsb']
  rw [this]
  simp [hi]

theorem lowNibble_append (a b : Nibble) : lowNibble (a ++ b) = b := by
  apply BitVec.eq_of_getLsbD_eq
  intro i hi
  have := BitVec.getLsbD_append (x := a) (y := b) (i := 0 + i)
  simp only [lowNibble, BitVec.getLsbD_extractLsb']
  rw [this]
  simp [hi]

/-- The sender's address that `UNPACK` of the identifier in hand gives (R235). -/
theorem res1_unpackOp (id : Ident) (s : State) :
    (unpackOp (id.setWidth 32) s).res1 = (sourceOf id).setWidth 32 := by
  show (sourceOf ((id.setWidth 32).setWidth 12)).setWidth 32 = _
  congr 2
  apply BitVec.eq_of_getLsbD_eq
  intro i hi
  simp [hi]

theorem address_roundtrip (a : BitVec 6) : ((a.setWidth 32 : Word32)).extractLsb' 0 6 = a := by
  apply BitVec.eq_of_getLsbD_eq
  intro i hi
  simp [hi]
  intro
  omega

end Sys2Proof.Machine
end

