-- ==== Sys2Proof/Laws/PerInstr.lean ====
section
/-! SUPPORT. One lemma for each instruction: its encoding carries the opcode, or the command id, that the
opcode table gives its row (R89, R91). -/

namespace Sys2Proof.Laws.EncodesItsRow

/-- The `match` of the instruction's row of spec/opcode_table.json: the `OPC` byte of a port operation, or
the command id nibble of a wire command. -/
def row : Instr → Byte ⊕ Nibble
  | .clear => .inl 0x00
  | .addU8 _ => .inl 0x01
  | .addU16 _ => .inl 0x02
  | .addBool _ => .inl 0x03
  | .addFloat _ => .inl 0x04
  | .getU8 => .inl 0x05
  | .getU16 => .inl 0x06
  | .getBool => .inl 0x07
  | .getFloat => .inl 0x08
  | .getBuf => .inl 0x09
  | .getLen => .inl 0x0A
  | .putBuf _ _ => .inl 0x0B
  | .pack _ _ => .inl 0x10
  | .unpack _ => .inl 0x11
  | .packNib _ _ => .inl 0x12
  | .unpackNib _ => .inl 0x13
  | .tryTake _ _ => .inl 0x20
  | .readM _ _ => .inl 0x21
  | .readMT _ _ _ => .inl 0x22
  | .availM _ _ => .inl 0x23
  | .mReset => .inl 0x24
  | .sendF _ _ => .inl 0x30
  | .eStop _ => .inr 0x0
  | .calibrate _ => .inr 0x1
  | .setMotorPosition _ => .inr 0x2
  | .setMotorSpeed _ => .inr 0x3
  | .toggleState _ => .inr 0x4
  | .getMotorPosition _ => .inr 0x5
  | .getMotorSpeed _ => .inr 0x6
  | .broadcastDatapoint _ => .inr 0x7
  | .requestDatapoint _ => .inr 0x8
  | .ping _ => .inr 0x9

/-- The encoding stands in the row's space and carries the row's bits. -/
def Statement (i : Instr) : Prop :=
  match encode i with
  | .word cw => row i = .inl (opcField cw)
  | .payload _ data => row i = .inr (Machine.cmdOf data)

theorem clear : Statement .clear := congrArg Sum.inl (opcField_wordN _).symm
theorem addU8 (v : Word32) : Statement (.addU8 v) := congrArg Sum.inl (opcField_wordV _ _).symm
theorem addU16 (v : Word32) : Statement (.addU16 v) := congrArg Sum.inl (opcField_wordV _ _).symm
theorem addBool (v : Word32) : Statement (.addBool v) := congrArg Sum.inl (opcField_wordV _ _).symm
theorem addFloat (v : Word32) : Statement (.addFloat v) := congrArg Sum.inl (opcField_wordV _ _).symm
theorem getU8 : Statement .getU8 := congrArg Sum.inl (opcField_wordN _).symm
theorem getU16 : Statement .getU16 := congrArg Sum.inl (opcField_wordN _).symm
theorem getBool : Statement .getBool := congrArg Sum.inl (opcField_wordN _).symm
theorem getFloat : Statement .getFloat := congrArg Sum.inl (opcField_wordN _).symm
theorem getBuf : Statement .getBuf := congrArg Sum.inl (opcField_wordN _).symm
theorem getLen : Statement .getLen := congrArg Sum.inl (opcField_wordN _).symm
theorem putBuf (len : BitVec 4) (data : Payload) : Statement (.putBuf len data) := congrArg Sum.inl (opcField_wordB _ _ _).symm
theorem pack (a b : BitVec 16) : Statement (.pack a b) := congrArg Sum.inl (opcField_wordP _ _ _).symm
theorem unpack (v : Word32) : Statement (.unpack v) := congrArg Sum.inl (opcField_wordV _ _).symm
theorem packNib (a b : BitVec 16) : Statement (.packNib a b) := congrArg Sum.inl (opcField_wordP _ _ _).symm
theorem unpackNib (v : Word32) : Statement (.unpackNib v) := congrArg Sum.inl (opcField_wordV _ _).symm
theorem tryTake (id mask : Ident) : Statement (.tryTake id mask) := congrArg Sum.inl (opcField_wordM _ _ _ _).symm
theorem readM (id mask : Ident) : Statement (.readM id mask) := congrArg Sum.inl (opcField_wordM _ _ _ _).symm
theorem readMT (t : Word32) (id mask : Ident) : Statement (.readMT t id mask) := congrArg Sum.inl (opcField_wordM _ _ _ _).symm
theorem availM (id mask : Ident) : Statement (.availM id mask) := congrArg Sum.inl (opcField_wordM _ _ _ _).symm
theorem mReset : Statement .mReset := congrArg Sum.inl (opcField_wordN _).symm
theorem sendF (id : Ident) (len : BitVec 4) : Statement (.sendF id len) := congrArg Sum.inl (opcField_wordS _ _ _).symm
theorem eStop (e : Envelope) : Statement (.eStop e) := congrArg Sum.inr (cmdOf_envelopeData _ _).symm
theorem calibrate (e : Envelope) : Statement (.calibrate e) := congrArg Sum.inr (cmdOf_envelopeData _ _).symm
theorem setMotorPosition (e : Envelope) : Statement (.setMotorPosition e) := congrArg Sum.inr (cmdOf_envelopeData _ _).symm
theorem setMotorSpeed (e : Envelope) : Statement (.setMotorSpeed e) := congrArg Sum.inr (cmdOf_envelopeData _ _).symm
theorem toggleState (e : Envelope) : Statement (.toggleState e) := congrArg Sum.inr (cmdOf_envelopeData _ _).symm
theorem getMotorPosition (e : Envelope) : Statement (.getMotorPosition e) := congrArg Sum.inr (cmdOf_envelopeData _ _).symm
theorem getMotorSpeed (e : Envelope) : Statement (.getMotorSpeed e) := congrArg Sum.inr (cmdOf_envelopeData _ _).symm
theorem broadcastDatapoint (e : Envelope) : Statement (.broadcastDatapoint e) := congrArg Sum.inr (cmdOf_envelopeData _ _).symm
theorem requestDatapoint (e : Envelope) : Statement (.requestDatapoint e) := congrArg Sum.inr (cmdOf_envelopeData _ _).symm
theorem ping (e : Envelope) : Statement (.ping e) := congrArg Sum.inr (cmdOf_envelopeData _ _).symm

end Sys2Proof.Laws.EncodesItsRow
end

