-- ==== Sys2Proof/Laws/Plan.lean ====
section
/-! SUPPORT. What the lines of a host sequence do, said once for each line, and how a run of steps does them
one after the other while the environment makes its moves. -/

namespace Sys2Proof.Machine

/-! ### A line and the environment -/

/-- `s` with the environment's part of `e`. -/
def State.withEnv (e s : State) : State := { s with now := e.now, tq := e.tq, link := e.link, ticks := e.ticks }

theorem advance_eq_withEnv (s : State) : s.advance = State.withEnv s.advance s := by
  rcases advance_cases s with ⟨ht, h⟩ | ⟨k, ts, ht, h⟩ <;> rw [h] <;> cases s <;> simp_all [State.withEnv]

/-- A line that calls the transport in no way, and so looks at nothing of the environment. -/
def HostOp.silent : HostOp → Bool
  | .sendF _ | .awaitReply _ | .awaitRequest | .awaitBroadcast | .availRequest | .takeRequest | .resetMatcher => false
  | _ => true

/-- A list of silent lines, done one after the other from `s` without an error, leads to `t`. -/
def Does : List HostOp → State → State → Prop
  | [], s, t => s = t
  | o :: ops, s, t => o.silent = true ∧
      ∃ u, u.op = none ∧ u.waiting = s.waiting ∧
        (∀ e rest, hostOp o (State.withEnv e { s with plan := rest }) = State.withEnv e { u with plan := rest }) ∧
        Does ops u t

theorem Does.append {l₁ l₂ : List HostOp} {s t u : State} (h₁ : Does l₁ s t) (h₂ : Does l₂ t u) :
    Does (l₁ ++ l₂) s u := by
  induction l₁ generalizing s with
  | nil => cases h₁; exact h₂
  | cons o l ih =>
    obtain ⟨ho, v, h1, h2, h3, h4⟩ := h₁
    exact ⟨ho, v, h1, h2, h3, ih h4⟩

/-! ### Runs -/

/-- A run whose first step answers a next state. -/
theorem run_next {s t : State} (n : Nat) (h : step s = .next t) :
    Host.Core.run core (n + 1) s = Host.Core.run core n t := by
  have h' : core.step s = .next t := h
  simp only [Host.Core.run, h']

/-- A run of two parts, the first of which completes. -/
theorem run_add {m : Nat} {s t : State} (n : Nat) (h : Host.Core.run core m s = .next t) :
    Host.Core.run core (m + n) s = Host.Core.run core n t := by
  induction m generalizing s with
  | zero => cases h; rw [Nat.zero_add]
  | succ m ih =>
    rw [show m + 1 + n = (m + n) + 1 by omega]
    cases hs : core.step s with
    | next u => rw [run_next m hs] at h; rw [run_next (m + n) hs]; exact ih h
    | fault r => simp [Host.Core.run, hs] at h
    | refused r => simp [Host.Core.run, hs] at h

/-- A step of an idle block whose host is in a sequence is the sequence's next line (R14). -/
theorem step_continues {o : HostOp} {rest : List HostOp} {s : State} (h : Continues (o :: rest) s) :
    step s = .next (hostOp o { s.advance with plan := rest }) := by
  obtain ⟨ho, hw, hp, hr⟩ := h
  simp [step, fetch, ho, hw, hp, hr, planStep]

theorem advances_succ (n : Nat) (s : State) : s.advances (n + 1) = s.advance.advances n := rfl

theorem advance_linkAt (s : State) (n : Nat) : s.advance.linkAt n = s.linkAt (n + 1) := by
  rcases advance_cases s with ⟨ht, h⟩ | ⟨k, ts, ht, h⟩ <;> rw [h] <;> simp [State.linkAt, ht]

theorem linkAt_zero (s : State) : s.advance.link = s.linkAt 0 := by
  rcases advance_cases s with ⟨ht, h⟩ | ⟨k, ts, ht, h⟩ <;> rw [h] <;> simp [State.linkAt, ht]

theorem NoReset.head {n : Nat} {s : State} (h : NoReset (n + 1) s) : s.advance.link.hardReset = false := by
  rcases advance_cases s with ⟨ht, e⟩ | ⟨k, ts, ht, e⟩ <;> rw [e]
  · rfl
  · exact h k (by simp [ht])

theorem NoReset.tail {n : Nat} {s : State} (h : NoReset (n + 1) s) : NoReset n s.advance := by
  intro k hk
  rcases advance_cases s with ⟨ht, e⟩ | ⟨j, ts, ht, e⟩ <;> rw [e] at hk
  · simp [ht] at hk
  · exact h k (by simp [ht]; exact Or.inr hk)

/-- The environment's moves depend on the environment's part only. -/
theorem withEnv_advance (e s : State) : (State.withEnv e s).advance = State.withEnv e.advance s := by
  rcases advance_cases e with ⟨ht, h⟩ | ⟨k, ts, ht, h⟩ <;> rw [h] <;> simp [State.withEnv, State.advance, ht]

theorem withEnv_advances (n : Nat) (e s : State) :
    (State.withEnv e s).advances n = State.withEnv (e.advances n) s := by
  induction n generalizing e with
  | zero => rfl
  | succ n ih => rw [advances_succ, advances_succ, withEnv_advance, ih]

/-- The environment's moves change the environment's part only. -/
theorem advances_eq_withEnv (n : Nat) (s : State) : s.advances n = State.withEnv (s.advances n) s :=
  withEnv_advances n s s

theorem advances_form (n : Nat) (s : State) :
    ∃ now tq link ticks, s.advances n = { s with now := now, tq := tq, link := link, ticks := ticks } :=
  ⟨_, _, _, _, advances_eq_withEnv n s⟩

theorem linkAt_withEnv (e s : State) (n : Nat) : (State.withEnv e s).linkAt n = e.linkAt n := rfl

theorem noReset_withEnv {n : Nat} {e s : State} : NoReset n (State.withEnv e s) ↔ NoReset n e := Iff.rfl

theorem advances_linkAt (m n : Nat) (s : State) : (s.advances m).linkAt n = s.linkAt (m + n) := by
  induction m generalizing s with
  | zero => rw [Nat.zero_add]; rfl
  | succ m ih => rw [advances_succ, ih, advance_linkAt]; congr 1; omega

theorem advances_advance (n : Nat) (s : State) : (s.advances n).advance = s.advances (n + 1) := by
  induction n generalizing s with
  | zero => rfl
  | succ n ih => rw [advances_succ, ih]; rfl

/-- The inputs after some moves are those of the last one. -/
theorem advances_link (n : Nat) (s : State) : (s.advances (n + 1)).link = s.linkAt n := by
  rw [← advances_advance, linkAt_zero, advances_linkAt, Nat.add_zero]

theorem NoReset.drop {m n : Nat} {s : State} (h : NoReset (m + n) s) : NoReset n (s.advances m) := by
  induction m generalizing s with
  | zero => rwa [Nat.zero_add] at h
  | succ m ih => exact ih (NoReset.tail (by rwa [show m + 1 + n = m + n + 1 by omega] at h))

theorem NoReset.mono {m n : Nat} {s : State} (h : NoReset n s) (hm : m ≤ n) : NoReset m s := by
  intro k hk
  exact h k (List.take_subset_take_left _ hm hk)

/-- A run of as many steps as there are silent lines does the lines, and the environment makes its moves. -/
theorem run_does {ops rest : List HostOp} {e s t : State} (h : Does ops s t) (ho : s.op = none)
    (hw : s.waiting = false) (hr : NoReset ops.length e) :
    Host.Core.run core ops.length (State.withEnv e { s with plan := ops ++ rest }) =
      .next (State.withEnv (e.advances ops.length) { t with plan := rest }) ∧ t.op = none ∧ t.waiting = false := by
  induction ops generalizing s e with
  | nil => cases h; exact ⟨rfl, ho, hw⟩
  | cons o ops ih =>
    obtain ⟨-, u, h1, h2, h3, h4⟩ := h
    have hadv := withEnv_advance e { s with plan := o :: ops ++ rest }
    have hs : step (State.withEnv e { s with plan := o :: ops ++ rest }) =
        .next (State.withEnv e.advance { u with plan := ops ++ rest }) := by
      have := step_continues (s := State.withEnv e { s with plan := o :: ops ++ rest }) (o := o)
        (rest := ops ++ rest) ⟨ho, hw, rfl, by rw [hadv]; exact hr.head⟩
      rw [hadv] at this
      exact this.trans (congrArg Host.Outcome.next (h3 e.advance (ops ++ rest)))
    rw [List.length_cons, run_next _ hs]
    exact ih h4 h1 (h2.trans hw) hr.tail

/-- A sequence set out on by `startPlan`: its first line at once, the other silent lines one a step. -/
theorem startPlan_does {o : HostOp} {ops rest : List HostOp} {s t : State} (h : Does (o :: ops) s t)
    (hw : s.waiting = false) (hr : NoReset ops.length s) :
    Host.Core.run core ops.length (startPlan (o :: ops ++ rest) s) =
      .next (State.withEnv (s.advances ops.length) { t with plan := rest }) ∧ t.op = none ∧ t.waiting = false := by
  obtain ⟨-, u, h1, h2, h3, h4⟩ := h
  have : startPlan (o :: ops ++ rest) s = State.withEnv s { u with plan := ops ++ rest } := h3 s (ops ++ rest)
  rw [this]
  exact run_does h4 h1 (h2.trans hw) hr

/-- The same from an act of the host's script: the first line is the step's. -/
theorem run_plan {ops rest : List HostOp} {s t : State} (h : Does ops s t) (hp : s.plan = ops ++ rest)
    (ho : s.op = none) (hw : s.waiting = false) (hr : NoReset ops.length s) :
    Host.Core.run core ops.length s =
      .next (State.withEnv (s.advances ops.length) { t with plan := rest }) ∧ t.op = none ∧ t.waiting = false := by
  have hs : s = State.withEnv s { s with plan := ops ++ rest } := by cases s; simp_all [State.withEnv]
  have := run_does (e := s) (rest := rest) h ho hw hr
  rwa [← hs] at this

/-! ### Each line -/

/-- A line that ends in `collect` after a response with status `OK`. -/
theorem collect_ok {b : Response → Vars → Vars} {s : State} (h : s.response.status = .ok) :
    s.collect b = { s with vars := b s.response s.vars } := if_pos h

/-- A line that ends in `collect` after an error (R222, R256). -/
theorem collect_error {b : Response → Vars → Vars} {s : State} (h : s.response.status ≠ .ok) :
    s.collect b = s.finish (.failed s.response.status) := if_neg h

theorem hostOp_clear (s : State) : hostOp .clear s =
    { s with buf := [], cur := 0, op := none, rsp := Response.ok :: s.rsp } := rfl

theorem hostOp_putFrame (s : State) (hb : s.buf = []) : hostOp .putFrame s =
    { s with buf := frameBuffer s.vars.f.len s.vars.f.data, op := none, rsp := Response.ok :: s.rsp } := by
  have hl := s.vars.f.len.isLt
  rcases putBufOp_cases s.vars.f.len s.vars.f.data s with ⟨h, -⟩ | ⟨-, h⟩
  · simp only [bufBytes] at h; omega
  · rw [hb] at h
    rw [hostOp, h]
    rfl

theorem hostOp_getB0 {d : Payload} (s : State) (hm : ∀ k, k < 8 → Memory.read s.buf k = byteOf d k)
    (hc : s.cur = 0) : hostOp .getB0 s = { s with
      cur := 1, op := none, rsp := Response.values ((byteOf d 0).setWidth 32) 0 :: s.rsp
      vars := { s.vars with b0 := (byteOf d 0).setWidth 32 } } := by
  rw [hostOp, getU8Op_eq hm (by rw [hc]; decide), hc]
  rfl

theorem hostOp_getB1 {d : Payload} (s : State) (hm : ∀ k, k < 8 → Memory.read s.buf k = byteOf d k)
    (hc : s.cur = 1) : hostOp .getB1 s = { s with
      cur := 2, op := none, rsp := Response.values ((byteOf d 1).setWidth 32) 0 :: s.rsp
      vars := { s.vars with b1 := (byteOf d 1).setWidth 32 } } := by
  rw [hostOp, getU8Op_eq hm (by rw [hc]; decide), hc]
  rfl

theorem hostOp_getFloat {d : Payload} (s : State) (hm : ∀ k, k < 8 → Memory.read s.buf k = byteOf d k)
    (hc : s.cur = 2) : hostOp .getFloat s = { s with
      cur := 6, op := none, rsp := Response.values (d.extractLsb' 16 32) 0 :: s.rsp
      vars := { s.vars with p := d.extractLsb' 16 32 } } := by
  rw [hostOp, getFloatOp_eq hm (by rw [hc]; decide), hc]
  rfl

theorem hostOp_unpackId (s : State) : hostOp .unpackId s = { s with
    op := none
    rsp := Response.values ((destOf s.vars.f.id).setWidth 32) ((sourceOf s.vars.f.id).setWidth 32) :: s.rsp
    vars := { s.vars with src := (sourceOf s.vars.f.id).setWidth 32 } } := by
  have : (s.vars.f.id.setWidth 32).setWidth 12 = s.vars.f.id := by
    apply BitVec.eq_of_getLsbD_eq; intro i hi; simp [hi]
  rw [hostOp, unpackOp, this]
  rfl

theorem hostOp_unpackB0 (s : State) : hostOp .unpackB0 s = unpackNibOp s.vars.b0 s := rfl

theorem hostOp_unpackB1 {b : Byte} (s : State) (hb : s.vars.b1 = b.setWidth 32) : hostOp .unpackB1 s = { s with
    op := none
    rsp := Response.values ((highNibble b).setWidth 32) ((lowNibble b).setWidth 32) :: s.rsp
    vars := { s.vars with target := (highNibble b).setWidth 32, flags := (lowNibble b).setWidth 32 } } := by
  rw [hostOp, hb, unpackNibOp_eq]
  rfl

theorem hostOp_packCommand (c : CmdId) (s : State) : hostOp (.packCommand c) s = { s with
    op := none, seq := s.seq + 1
    rsp := Response.values ((packNibbles ((cmdCode c).setWidth 16) (s.seq.setWidth 16)).setWidth 32) 0 :: s.rsp
    vars := { s.vars with
      b0 := (packNibbles ((cmdCode c).setWidth 16) (s.seq.setWidth 16)).setWidth 32 } } := rfl

theorem hostOp_packB0 (a b : BitVec 16) (s : State) : hostOp (.packB0 a b) s = { s with
    op := none, rsp := Response.values ((packNibbles a b).setWidth 32) 0 :: s.rsp
    vars := { s.vars with b0 := (packNibbles a b).setWidth 32 } } := rfl

theorem hostOp_packB1 (a b : BitVec 16) (s : State) : hostOp (.packB1 a b) s = { s with
    op := none, rsp := Response.values ((packNibbles a b).setWidth 32) 0 :: s.rsp
    vars := { s.vars with b1 := (packNibbles a b).setWidth 32 } } := rfl

theorem hostOp_addB0 (s : State) (hb : s.buf = []) (hc : s.cur = 0) : hostOp .addB0 s = { s with
    buf := Memory.writeN [] 0 1 (u8Operand s.vars.b0), cur := 1, op := none, rsp := Response.ok :: s.rsp } := by
  rw [hostOp, addU8Op, appendOp_eq (by rw [hc]; decide), hb, hc]
  rfl

theorem hostOp_addB1 {b0 : Word32} (s : State) (hb : s.buf = Memory.writeN [] 0 1 (u8Operand b0))
    (hc : s.cur = 1) : hostOp .addB1 s = { s with
    buf := headerBuffer b0 s.vars.b1, cur := 2, op := none, rsp := Response.ok :: s.rsp } := by
  rw [hostOp, addU8Op, appendOp_eq (by rw [hc]; decide), hb, hc]
  rfl

theorem hostOp_addFloat {b0 b1 : Word32} (v : Word32) (s : State) (hb : s.buf = headerBuffer b0 b1)
    (hc : s.cur = 2) : hostOp (.addFloat v) s = { s with
    buf := floatBuffer b0 b1 v, cur := 6, op := none, rsp := Response.ok :: s.rsp } := by
  rw [hostOp, addFloatOp_header v hb hc]
  rfl

theorem hostOp_addResult {b0 b1 : Word32} (s : State) (hb : s.buf = headerBuffer b0 b1) (hc : s.cur = 2) :
    hostOp .addResult s = { s with
      buf := floatBuffer b0 b1 s.vars.q, cur := 6, op := none, rsp := Response.ok :: s.rsp } := by
  rw [hostOp, addFloatOp_header s.vars.q hb hc]
  rfl

theorem hostOp_packTo (d : BitVec 16) (s : State) : hostOp (.packTo d) s = { s with
    op := none, rsp := Response.values ((packIdent d s.selfOperand).setWidth 32) 0 :: s.rsp
    vars := { s.vars with id := (packIdent d s.selfOperand).setWidth 32 } } := rfl

theorem hostOp_packFrom (d : BitVec 16) (s : State) : hostOp (.packFrom d) s = { s with
    op := none, rsp := Response.values ((packIdent s.selfOperand d).setWidth 32) 0 :: s.rsp
    vars := { s.vars with id := (packIdent s.selfOperand d).setWidth 32 } } := rfl

theorem hostOp_packReply (s : State) : hostOp .packReply s = { s with
    op := none, rsp := Response.values ((packIdent (s.vars.src.setWidth 16) s.selfOperand).setWidth 32) 0 :: s.rsp
    vars := { s.vars with id := (packIdent (s.vars.src.setWidth 16) s.selfOperand).setWidth 32 } } := rfl

/-- Everything the line `SENDF id, len` can do with a length the buffer holds: the frame is sent, or a
`TransportError` ends the sequence (R177, R222, R256). -/
theorem hostOp_sendF_cases {len : BitVec 4} (hn : len.toNat ≤ 8) (s : State) :
    (s.link.writeFails = false ∧ hostOp (.sendF len) s = { s with
      op := none, rsp := Response.ok :: s.rsp
      sent := s.sent ++ [sentFrame (s.vars.id.setWidth 12) len.toNat s] }) ∨
    (s.link.writeFails = true ∧ hostOp (.sendF len) s = { s with
      op := none, rsp := Response.error .transportError :: s.rsp
      results := s.results ++ [.failed .transportError], waiting := false, plan := [] }) := by
  rw [hostOp]
  rcases sendOp_cases (s.vars.id.setWidth 12) len.toNat s with ⟨h, -⟩ | ⟨-, h, e⟩ | ⟨-, h, e⟩
  · exact absurd h (by simp only [bufBytes]; omega)
  · exact Or.inr ⟨h, by rw [e]; rfl⟩
  · exact Or.inl ⟨h, by rw [e]; rfl⟩

/-! ### The lines of a sequence, each leading to the next -/

/-- One silent line. -/
theorem Does.one {o : HostOp} {s t : State} (ho : o.silent = true) (h1 : t.op = none)
    (h2 : t.waiting = s.waiting)
    (h : ∀ e rest, hostOp o (State.withEnv e { s with plan := rest }) = State.withEnv e { t with plan := rest }) :
    Does [o] s t := ⟨ho, t, h1, h2, h, rfl⟩

theorem does_clear (s : State) : Does [.clear] s
    { s with buf := [], cur := 0, op := none, rsp := Response.ok :: s.rsp } :=
  .one rfl rfl rfl fun _ _ => hostOp_clear _

theorem does_putFrame (s : State) (hb : s.buf = []) : Does [.putFrame] s
    { s with buf := frameBuffer s.vars.f.len s.vars.f.data, op := none, rsp := Response.ok :: s.rsp } :=
  .one rfl rfl rfl fun _ _ => hostOp_putFrame _ hb

theorem does_getB0 {d : Payload} (s : State) (hm : ∀ k, k < 8 → Memory.read s.buf k = byteOf d k)
    (hc : s.cur = 0) : Does [.getB0] s { s with
      cur := 1, op := none, rsp := Response.values ((byteOf d 0).setWidth 32) 0 :: s.rsp
      vars := { s.vars with b0 := (byteOf d 0).setWidth 32 } } :=
  .one rfl rfl rfl fun _ _ => hostOp_getB0 _ hm hc

theorem does_getB1 {d : Payload} (s : State) (hm : ∀ k, k < 8 → Memory.read s.buf k = byteOf d k)
    (hc : s.cur = 1) : Does [.getB1] s { s with
      cur := 2, op := none, rsp := Response.values ((byteOf d 1).setWidth 32) 0 :: s.rsp
      vars := { s.vars with b1 := (byteOf d 1).setWidth 32 } } :=
  .one rfl rfl rfl fun _ _ => hostOp_getB1 _ hm hc

theorem does_getFloat {d : Payload} (s : State) (hm : ∀ k, k < 8 → Memory.read s.buf k = byteOf d k)
    (hc : s.cur = 2) : Does [.getFloat] s { s with
      cur := 6, op := none, rsp := Response.values (d.extractLsb' 16 32) 0 :: s.rsp
      vars := { s.vars with p := d.extractLsb' 16 32 } } :=
  .one rfl rfl rfl fun _ _ => hostOp_getFloat _ hm hc

theorem does_unpackId (s : State) : Does [.unpackId] s { s with
    op := none
    rsp := Response.values ((destOf s.vars.f.id).setWidth 32) ((sourceOf s.vars.f.id).setWidth 32) :: s.rsp
    vars := { s.vars with src := (sourceOf s.vars.f.id).setWidth 32 } } :=
  .one rfl rfl rfl fun _ _ => hostOp_unpackId _

theorem does_unpackB0 {b : Byte} (s : State) (hb : s.vars.b0 = b.setWidth 32) : Does [.unpackB0] s { s with
    op := none
    rsp := Response.values ((highNibble b).setWidth 32) ((lowNibble b).setWidth 32) :: s.rsp } :=
  .one rfl rfl rfl fun _ _ => by rw [hostOp_unpackB0]; show unpackNibOp s.vars.b0 _ = _; rw [hb, unpackNibOp_eq]; rfl

theorem does_unpackB1 {b : Byte} (s : State) (hb : s.vars.b1 = b.setWidth 32) : Does [.unpackB1] s { s with
    op := none
    rsp := Response.values ((highNibble b).setWidth 32) ((lowNibble b).setWidth 32) :: s.rsp
    vars := { s.vars with target := (highNibble b).setWidth 32, flags := (lowNibble b).setWidth 32 } } :=
  .one rfl rfl rfl fun _ _ => hostOp_unpackB1 _ hb

theorem does_packCommand (c : CmdId) (s : State) : Does [.packCommand c] s { s with
    op := none, seq := s.seq + 1
    rsp := Response.values ((packNibbles ((cmdCode c).setWidth 16) (s.seq.setWidth 16)).setWidth 32) 0 :: s.rsp
    vars := { s.vars with
      b0 := (packNibbles ((cmdCode c).setWidth 16) (s.seq.setWidth 16)).setWidth 32 } } :=
  .one rfl rfl rfl fun _ _ => hostOp_packCommand _ _

theorem does_packB0 (a b : BitVec 16) (s : State) : Does [.packB0 a b] s { s with
    op := none, rsp := Response.values ((packNibbles a b).setWidth 32) 0 :: s.rsp
    vars := { s.vars with b0 := (packNibbles a b).setWidth 32 } } :=
  .one rfl rfl rfl fun _ _ => hostOp_packB0 _ _ _

theorem does_packB1 (a b : BitVec 16) (s : State) : Does [.packB1 a b] s { s with
    op := none, rsp := Response.values ((packNibbles a b).setWidth 32) 0 :: s.rsp
    vars := { s.vars with b1 := (packNibbles a b).setWidth 32 } } :=
  .one rfl rfl rfl fun _ _ => hostOp_packB1 _ _ _

theorem does_addB0 (s : State) (hb : s.buf = []) (hc : s.cur = 0) : Does [.addB0] s { s with
    buf := Memory.writeN [] 0 1 (u8Operand s.vars.b0), cur := 1, op := none, rsp := Response.ok :: s.rsp } :=
  .one rfl rfl rfl fun _ _ => hostOp_addB0 _ hb hc

theorem does_addB1 {b0 : Word32} (s : State) (hb : s.buf = Memory.writeN [] 0 1 (u8Operand b0))
    (hc : s.cur = 1) : Does [.addB1] s { s with
    buf := headerBuffer b0 s.vars.b1, cur := 2, op := none, rsp := Response.ok :: s.rsp } :=
  .one rfl rfl rfl fun _ _ => hostOp_addB1 _ hb hc

theorem does_addFloat {b0 b1 : Word32} (v : Word32) (s : State) (hb : s.buf = headerBuffer b0 b1)
    (hc : s.cur = 2) : Does [.addFloat v] s { s with
    buf := floatBuffer b0 b1 v, cur := 6, op := none, rsp := Response.ok :: s.rsp } :=
  .one rfl rfl rfl fun _ _ => hostOp_addFloat _ _ hb hc

theorem does_addResult {b0 b1 : Word32} (s : State) (hb : s.buf = headerBuffer b0 b1) (hc : s.cur = 2) :
    Does [.addResult] s { s with
      buf := floatBuffer b0 b1 s.vars.q, cur := 6, op := none, rsp := Response.ok :: s.rsp } :=
  .one rfl rfl rfl fun _ _ => hostOp_addResult _ hb hc

theorem does_packTo (d : BitVec 16) (s : State) : Does [.packTo d] s { s with
    op := none, rsp := Response.values ((packIdent d s.selfOperand).setWidth 32) 0 :: s.rsp
    vars := { s.vars with id := (packIdent d s.selfOperand).setWidth 32 } } :=
  .one rfl rfl rfl fun _ _ => hostOp_packTo _ _

theorem does_packFrom (d : BitVec 16) (s : State) : Does [.packFrom d] s { s with
    op := none, rsp := Response.values ((packIdent s.selfOperand d).setWidth 32) 0 :: s.rsp
    vars := { s.vars with id := (packIdent s.selfOperand d).setWidth 32 } } :=
  .one rfl rfl rfl fun _ _ => hostOp_packFrom _ _

theorem does_packReply (s : State) : Does [.packReply] s { s with
    op := none, rsp := Response.values ((packIdent (s.vars.src.setWidth 16) s.selfOperand).setWidth 32) 0 :: s.rsp
    vars := { s.vars with id := (packIdent (s.vars.src.setWidth 16) s.selfOperand).setWidth 32 } } :=
  .one rfl rfl rfl fun _ _ => hostOp_packReply _

/-- The handler's call looks at nothing of the block (R235). -/
theorem does_call (k : Slot) (s : State) (ho : s.op = none) : Does [.call k] s (s.callHandler k) :=
  .one rfl ho rfl fun _ _ => rfl

theorem does_pong (s : State) (ho : s.op = none) :
    Does [.pong] s { s with vars := { s.vars with q := pongPattern } } :=
  .one rfl ho rfl fun _ _ => rfl

/-! ### The parts of the sequences -/

/-- The frame in hand loaded and its header read (R97, R194). -/
theorem does_header {s : State} {d : Payload} (hd : d = maskBytes s.vars.f.len s.vars.f.data) :
    ∃ rs, Does headerPlan s { s with
      buf := frameBuffer s.vars.f.len s.vars.f.data, cur := 2, op := none, rsp := rs
      vars := { s.vars with b0 := (byteOf d 0).setWidth 32, b1 := (byteOf d 1).setWidth 32 } } := by
  have hl := s.vars.f.len.isLt
  have hr : ∀ k, k < 8 → Memory.read (frameBuffer s.vars.f.len s.vars.f.data) k = byteOf d k :=
    fun k _ => by rw [hd]; exact read_frameBuffer _ k (by omega)
  exact ⟨_, (does_clear s).append ((does_putFrame _ rfl).append
    ((does_getB0 (d := d) _ hr rfl).append (does_getB1 (d := d) _ hr rfl)))⟩

/-- The responder's decoding (R235). -/
theorem does_decode (w : Bool) {s : State} {d : Payload} (hd : d = maskBytes s.vars.f.len s.vars.f.data) :
    ∃ rs, Does (decodePlan w) s { s with
      buf := frameBuffer s.vars.f.len s.vars.f.data, cur := if w then 6 else 2, op := none, rsp := rs
      vars := { s.vars with
        src := (sourceOf s.vars.f.id).setWidth 32
        b0 := (byteOf d 0).setWidth 32, b1 := (byteOf d 1).setWidth 32
        target := (highNibble (byteOf d 1)).setWidth 32, flags := (lowNibble (byteOf d 1)).setWidth 32
        p := if w then d.extractLsb' 16 32 else s.vars.p } } := by
  have hl := s.vars.f.len.isLt
  have hr : ∀ k, k < 8 → Memory.read (frameBuffer s.vars.f.len s.vars.f.data) k = byteOf d k :=
    fun k _ => by rw [hd]; exact read_frameBuffer _ k (by omega)
  obtain ⟨rs, h⟩ := does_header (s := { s with
      op := none
      rsp := Response.values ((destOf s.vars.f.id).setWidth 32) ((sourceOf s.vars.f.id).setWidth 32) :: s.rsp
      vars := { s.vars with src := (sourceOf s.vars.f.id).setWidth 32 } }) hd
  have h7 := (does_unpackId s).append (h.append
    ((does_unpackB0 (b := byteOf d 0) _ rfl).append (does_unpackB1 (b := byteOf d 1) _ rfl)))
  cases w
  · exact ⟨_, h7⟩
  · exact ⟨_, h7.append (does_getFloat (d := d) _ hr rfl)⟩

/-- The reply up to its `SENDF` (R235). -/
theorem does_reply (s : State) : ∃ rs,
    Does [.clear, .addB0, .addB1, .addResult, .packReply] s { s with
      buf := floatBuffer s.vars.b0 s.vars.b1 s.vars.q, cur := 6, op := none, rsp := rs
      vars := { s.vars with id := (packIdent (s.vars.src.setWidth 16) s.selfOperand).setWidth 32 } } :=
  ⟨_, (does_clear s).append ((does_addB0 _ rfl rfl).append ((does_addB1 (b0 := s.vars.b0) _ rfl rfl).append
    ((does_addResult (b0 := s.vars.b0) (b1 := s.vars.b1) _ rfl rfl).append (does_packReply _))))⟩

/-- A header built (R194). -/
theorem does_build {o₀ : HostOp} {b₀ : Word32} {a b : BitVec 16} {s t : State} (h : Does [o₀] { s with
      buf := [], cur := 0, op := none, rsp := Response.ok :: s.rsp } t) (hb : t.buf = []) (hc : t.cur = 0)
    (h0 : t.vars.b0 = b₀) : ∃ rs, Does [.clear, o₀, .addB0, .packB1 a b, .addB1] s { t with
      buf := headerBuffer b₀ ((packNibbles a b).setWidth 32), cur := 2, op := none, rsp := rs
      vars := { t.vars with b1 := (packNibbles a b).setWidth 32 } } := by
  subst h0
  exact ⟨_, (does_clear s).append (h.append ((does_addB0 t hb hc).append
    ((does_packB1 a b _).append (does_addB1 (b0 := t.vars.b0) _ rfl rfl))))⟩

end Sys2Proof.Machine
end

