-- ==== Sys2Proof/Laws/Sequences.lean ====
section
/-! SUPPORT. What the whole of a host sequence does: a responder's serving and dropping of a request, a master's
and a listener's reading of a frame, the sending of a request and of a broadcast. -/

namespace Sys2Proof.Machine

/-- The names after a responder's decoding of a frame (R235). -/
def decodedVars (w : Bool) (f : Frame) (v : Vars) : Vars :=
  { v with
    f := f, src := (sourceOf f.id).setWidth 32
    b0 := (byteOf (maskBytes f.len f.data) 0).setWidth 32
    b1 := (byteOf (maskBytes f.len f.data) 1).setWidth 32
    target := (highNibble (byteOf (maskBytes f.len f.data) 1)).setWidth 32
    flags := (lowNibble (byteOf (maskBytes f.len f.data) 1)).setWidth 32
    p := if w then (maskBytes f.len f.data).extractLsb' 16 32 else v.p }

/-- A sequence of silent lines, set out on in a state with the environment of `b`: its first line at once and
the others one a step. -/
theorem run_silent (b : State) {ops : List HostOp} {n : Nat} {s t : State} (h : Does ops s t)
    (hb : s = State.withEnv b s) (hn : ops.length = n + 1) (hw : s.waiting = false) (hr : NoReset n b) :
    Host.Core.run core n (startPlan ops s) = .next (State.withEnv (b.advances n) { t with plan := [] }) := by
  cases ops with
  | nil => simp at hn
  | cons o ops =>
    obtain rfl : ops.length = n := by simpa using hn
    have := (startPlan_does (rest := []) h hw (by rw [hb]; exact hr)).1
    rw [List.append_nil] at this
    rw [this, hb, withEnv_advances]
    rfl

/-- The same up to a line that need not be silent, which is the last step. -/
theorem run_last (b : State) {last : HostOp} {plan ops rest : List HostOp} {n : Nat} {s t : State} (h : Does ops s t)
    (hp : plan = ops ++ last :: rest) (hb : s = State.withEnv b s) (hn : ops.length = n) (hn0 : n ≠ 0)
    (hw : s.waiting = false) (hr : NoReset n b) :
    Host.Core.run core n (startPlan plan s) =
      .next (hostOp last (State.withEnv (b.advances n) { t with plan := rest })) := by
  subst hp
  cases ops with
  | nil => exact absurd hn.symm hn0
  | cons o ops =>
    subst hn
    obtain ⟨h1, h2, h3⟩ := startPlan_does (rest := last :: rest) h hw (by rw [hb]; exact hr.mono (by simp))
    rw [List.length_cons, run_add 1 h1, hb, withEnv_advances]
    have hc : Continues (last :: rest) (State.withEnv (b.advances ops.length) { t with plan := last :: rest }) :=
      ⟨h2, h3, rfl, by rw [withEnv_advance]; exact (hr.drop (m := ops.length) (n := 1)).head⟩
    have := run_next 0 (step_continues hc)
    rw [withEnv_advance, advances_advance] at this
    exact this

/-! ### A responder -/

/-- The responder's decoding of a frame just received (R235). -/
theorem does_decode_received (w : Bool) (f : Frame) (s : State) : ∃ rs,
    Does (decodePlan w) { s with waiting := false, vars := { s.vars with f := f } } { s with
      buf := frameBuffer f.len f.data, cur := if w then 6 else 2, op := none, rsp := rs, waiting := false
      vars := decodedVars w f s.vars } :=
  does_decode w (s := { s with waiting := false, vars := { s.vars with f := f } }) rfl

/-- A responder's serving of a request, up to the `SENDF` of its reply, which is the last step (R235). -/
theorem run_serve (w : Bool) {answer : HostOp} {cs : List HandlerCall} {hr : List (Option Word32)}
    {q : Word32} (f : Frame) {s : State}
    (hans : ∀ u : State, u.op = none → u.vars = decodedVars w f s.vars → u.calls = s.calls →
      u.handlerReturns = s.handlerReturns →
      Does [answer] u { u with
        calls := cs, handlerReturns := hr, vars := { decodedVars w f s.vars with q := q } })
    {n : Nat} (hn : n = if w then 14 else 13) (hres : NoReset n s) :
    ∃ rs, Host.Core.run core n
        (startPlan (servePlan w answer) { s with waiting := false, vars := { s.vars with f := f } }) =
      .next (hostOp (.sendF 6) (State.withEnv (s.advances n) { s with
        buf := floatBuffer (decodedVars w f s.vars).b0 (decodedVars w f s.vars).b1 q, cur := 6, op := none
        rsp := rs, plan := [], waiting := false, calls := cs, handlerReturns := hr
        vars := { decodedVars w f s.vars with
          q := q
          id := (packIdent ((decodedVars w f s.vars).src.setWidth 16) s.selfOperand).setWidth 32 } })) := by
  obtain ⟨r1, h1⟩ := does_decode_received w f s
  have h2 := hans { s with
      buf := frameBuffer f.len f.data, cur := if w then 6 else 2, op := none, rsp := r1, waiting := false
      vars := decodedVars w f s.vars } rfl rfl rfl rfl
  obtain ⟨r3, h3⟩ := does_reply { s with
      buf := frameBuffer f.len f.data, cur := if w then 6 else 2, op := none, rsp := r1, waiting := false
      calls := cs, handlerReturns := hr, vars := { decodedVars w f s.vars with q := q } }
  exact ⟨r3, run_last s (h1.append (h2.append h3)) (by simp [servePlan, replyPlan]) rfl
    (by rw [hn]; cases w <;> rfl) (by rw [hn]; cases w <;> simp) rfl hres⟩

/-- A responder's dropping of a request (R205, R235). -/
theorem run_drop (f : Frame) {s : State} (hres : NoReset 6 s) :
    ∃ rs, Host.Core.run core 6
        (startPlan dropPlan { s with waiting := false, vars := { s.vars with f := f } }) =
      .next (State.withEnv (s.advances 6) { s with
        buf := frameBuffer f.len f.data, cur := 2, op := none, rsp := rs, plan := [], waiting := false
        vars := decodedVars false f s.vars }) := by
  obtain ⟨r, h⟩ := does_decode_received false f s
  exact ⟨r, run_silent s h rfl rfl rfl hres⟩

/-- What a handler's call leaves, in the form `run_serve` asks for. -/
theorem does_call_decoded (w : Bool) (f : Frame) (k : Slot) (s u : State) (ho : u.op = none)
    (hv : u.vars = decodedVars w f s.vars) (hc : u.calls = s.calls)
    (hh : u.handlerReturns = s.handlerReturns) :
    Does [.call k] u { u with
      calls := s.calls ++ [k.call (decodedVars w f s.vars)], handlerReturns := s.handlerReturns.tail
      vars := { decodedVars w f s.vars with q := if k.returns then s.nextReturn else 0 } } := by
  have h := does_call k u ho
  rw [State.callHandler, hv, hc, hh, State.nextReturn, hh] at h
  exact h

/-- What Ping's marker leaves, in the form `run_serve` asks for. -/
theorem does_pong_decoded (w : Bool) (f : Frame) (s u : State) (ho : u.op = none)
    (hv : u.vars = decodedVars w f s.vars) (hc : u.calls = s.calls)
    (hh : u.handlerReturns = s.handlerReturns) :
    Does [.pong] u { u with
      calls := s.calls, handlerReturns := s.handlerReturns
      vars := { decodedVars w f s.vars with q := pongPattern } } := by
  have h := does_pong u ho
  rw [hv] at h
  rw [← hc, ← hh]
  exact h

/-- A frame with an envelope of the command `c`. -/
def envelopeFrame (id : Ident) (c : CmdId) (e : Envelope) : Frame :=
  { id := id, len := e.len, data := envelopeData (cmdCode c) e }

/-- What a responder decodes of a well-formed envelope. -/
theorem decodedVars_envelope (w : Bool) {id : Ident} {c : CmdId} {e : Envelope} (h : e.wellFormed c = true)
    (v : Vars) : decodedVars w (envelopeFrame id c e) v = { v with
      f := envelopeFrame id c e, src := (sourceOf id).setWidth 32
      b0 := (cmdCode c ++ e.seq).setWidth 32, b1 := (e.target ++ e.flags).setWidth 32
      target := e.target.setWidth 32, flags := e.flags.setWidth 32, p := if w then e.value else v.p } := by
  have hm : maskBytes e.len (envelopeData (cmdCode c) e) = envelopeData (cmdCode c) e := by
    simpa [Envelope.wellFormed] using h
  simp only [decodedVars, envelopeFrame, hm, byteOf_zero_envelopeData, byteOf_one_envelopeData,
    highNibble_append, lowNibble_append, float_envelopeData]

/-- The reply's payload as an envelope of its header bytes and float. -/
theorem replyFrame_data (r self : BitVec 6) (c : CmdId) (e : Envelope) (q : Word32) :
    (replyFrame r self c e q).data = envelopePayload (cmdCode c ++ e.seq) (e.target ++ e.flags) q := by
  apply BitVec.eq_of_getLsbD_eq
  intro i hi
  simp only [replyFrame, envelopePayload, BitVec.getLsbD_append]
  by_cases h4 : i < 4
  · simp [h4, show i < 8 by omega]
  by_cases h8 : i < 8
  · simp [h4, h8, show i - 4 < 4 by omega]
  by_cases h12 : i < 12
  · simp [h4, h8, show ¬ i - 4 < 4 by omega, show i - 8 < 8 by omega, show i - 8 < 4 by omega,
      show i - 4 - 4 = i - 8 by omega]
  by_cases h16 : i < 16
  · simp [h4, h8, show ¬ i - 4 < 4 by omega, show i - 8 < 8 by omega, show ¬ i - 8 < 4 by omega,
      show i - 4 - 4 = i - 8 by omega, show i - 8 - 4 < 4 by omega]
  · have : ¬ i - 4 < 4 := by omega
    have : ¬ i - 8 < 8 := by omega
    have : ¬ i - 4 - 4 < 4 := by omega
    have : ¬ i - 4 - 4 - 4 < 4 := by omega
    have : i - 4 - 4 - 4 - 4 = i - 8 - 8 := by omega
    simp [*]

/-- A responder's serving of a well-formed request, up to the `SENDF` of its reply (R192, R235, R236). -/
theorem run_answer (w : Bool) {answer : HostOp} {c : CmdId} {e : Envelope} {cs : List HandlerCall}
    {hr : List (Option Word32)} {q : Word32} {s : State} (he : e.wellFormed c = true)
    (hrole : s.role = .request)
    (hans : ∀ u : State, u.op = none →
      u.vars = decodedVars w (envelopeFrame s.response.frame.id c e) s.vars → u.calls = s.calls →
      u.handlerReturns = s.handlerReturns →
      Does [answer] u { u with
        calls := cs, handlerReturns := hr
        vars := { decodedVars w (envelopeFrame s.response.frame.id c e) s.vars with q := q } })
    {n : Nat} (hn : n = if w then 14 else 13) (hres : NoReset n s) :
    ∃ rs vs, vs.id.setWidth 12 = (sourceOf s.response.frame.id ++ s.params.self : Ident) ∧
      Host.Core.run core n (receive (servePlan w answer) e.len (envelopeData (cmdCode c) e) s) =
      .next (hostOp (.sendF 6) (State.withEnv (s.advances n) { s with
        buf := floatBuffer ((cmdCode c ++ e.seq).setWidth 32) ((e.target ++ e.flags).setWidth 32) q, cur := 6
        op := none, rsp := rs, plan := [], waiting := false, calls := cs, handlerReturns := hr
        vars := vs })) := by
  obtain ⟨rs, h⟩ := run_serve w (envelopeFrame s.response.frame.id c e) hans hn hres
  rw [decodedVars_envelope w he] at h
  refine ⟨rs, _, ?_, Eq.trans ?_ h⟩
  · rw [State.selfOperand, packIdent_address]
    congr 1
    apply BitVec.eq_of_getLsbD_eq
    intro i hi
    simp [hi, show i < 16 by omega]
  · rw [receive, hrole]
    rfl

/-- The operand of a well-formed wire command is a well-formed envelope. -/
theorem wellFormed_envelope {i : Instr} {c : CmdId} {e : Envelope} (h : envelope? i = some (c, e))
    (hw : WellFormed i = true) : e.wellFormed c = true := by
  cases i <;> simp only [envelope?, reduceCtorEq, Option.some.injEq, Prod.mk.injEq] at h
  all_goals obtain ⟨rfl, rfl⟩ := h
  all_goals exact hw

/-- A responder's meaning of each request, with the steps up to the `SENDF` of its reply, which is the last
(R192, R235, R236). -/
theorem run_exec {i : Instr} {c : CmdId} {e : Envelope} {n : Nat} {s : State} (h : envelope? i = some (c, e))
    (hc : c ≠ .broadcastDatapoint) (hw : WellFormed i = true) (hr : s.role = .request) (hn : ServeLines c n)
    (hres : NoReset n s) :
    ∃ t rs vs, exec i s = .next t ∧
      vs.id.setWidth 12 = (sourceOf s.response.frame.id ++ s.params.self : Ident) ∧
      Host.Core.run core n t = .next (hostOp (.sendF 6) (State.withEnv (s.advances n) { s with
        buf := floatBuffer ((cmdCode c ++ e.seq).setWidth 32) ((e.target ++ e.flags).setWidth 32)
          (replyValueOf c s.handlerReturns)
        cur := 6, op := none, rsp := rs, plan := [], waiting := false
        calls := s.calls ++ (handlerCallOf c e).toList
        handlerReturns := if c = .ping then s.handlerReturns else s.handlerReturns.tail
        vars := vs })) := by
  have hwf := wellFormed_envelope h hw
  have call : ∀ (w : Bool) (k : Slot), n = (if w then 14 else 13) → c ≠ .ping →
      (∀ v, v = decodedVars w (envelopeFrame s.response.frame.id c e) s.vars →
        handlerCallOf c e = some (k.call v)) →
      (replyValueOf c s.handlerReturns = if k.returns then s.nextReturn else 0) →
      exec i s = .next (receive (servePlan w (.call k)) e.len (envelopeData (cmdCode c) e) s) →
      ∃ t rs vs, exec i s = .next t ∧
        vs.id.setWidth 12 = (sourceOf s.response.frame.id ++ s.params.self : Ident) ∧
        Host.Core.run core n t = .next (hostOp (.sendF 6) (State.withEnv (s.advances n) { s with
          buf := floatBuffer ((cmdCode c ++ e.seq).setWidth 32) ((e.target ++ e.flags).setWidth 32)
            (replyValueOf c s.handlerReturns)
          cur := 6, op := none, rsp := rs, plan := [], waiting := false
          calls := s.calls ++ (handlerCallOf c e).toList
          handlerReturns := if c = .ping then s.handlerReturns else s.handlerReturns.tail
          vars := vs })) := by
    intro w k h1 h2 h3 h4 h5
    obtain ⟨rs, vs, h6, h7⟩ := run_answer w hwf hr
      (fun u ho hv hc hh => does_call_decoded w _ k s u ho hv hc hh) h1 hres
    refine ⟨_, rs, vs, h5, h6, ?_⟩
    rw [h7, h3 _ rfl, h4, if_neg h2]
    rfl
  cases i <;> simp only [envelope?, reduceCtorEq, Option.some.injEq, Prod.mk.injEq] at h
  all_goals obtain ⟨rfl, rfl⟩ := h
  all_goals simp only [ServeLines, HasFloat, reduceCtorEq, or_self, or_false, or_true, false_and, true_and,
    not_true, not_false_eq_true, false_or] at hn
  case broadcastDatapoint => exact absurd rfl hc
  case ping e =>
    obtain ⟨rs, vs, h6, h7⟩ := run_answer false hwf hr
      (fun u ho hv hc hh => does_pong_decoded false _ s u ho hv hc hh) hn hres
    refine ⟨_, rs, vs, rfl, h6, h7.trans ?_⟩
    rw [show (handlerCallOf .ping e).toList = [] from rfl, List.append_nil]
    rfl
  all_goals
    first
    | exact call true _ hn (by decide) (fun v hv => by
        subst hv
        rw [decodedVars_envelope _ hwf]
        simp [handlerCallOf, Slot.call]) rfl rfl
    | exact call false _ hn (by decide) (fun v hv => by
        subst hv
        rw [decodedVars_envelope _ hwf]
        simp [handlerCallOf, Slot.call]) rfl rfl

/-- The end of a reply, and whether it is sent (R177, R222, R256). -/
theorem sendF_reply {b0 b1 : Byte} {q : Word32} {r self : BitVec 6} {c : CmdId} {e : Envelope} (u : State)
    (hb : u.buf = floatBuffer (b0.setWidth 32) (b1.setWidth 32) q) (h0 : b0 = cmdCode c ++ e.seq)
    (h1 : b1 = e.target ++ e.flags) (hi : u.vars.id.setWidth 12 = r ++ self) :
    (∀ k, k < 8 → u.buf.read k = byteOf (replyFrame r self c e q).data k) ∧
    ((u.link.writeFails = false ∧ hostOp (.sendF 6) u = { u with
      op := none, rsp := Response.ok :: u.rsp, sent := u.sent ++ [replyFrame r self c e q] }) ∨
    (u.link.writeFails = true ∧ hostOp (.sendF 6) u = { u with
      op := none, rsp := Response.error .transportError :: u.rsp
      results := u.results ++ [.failed .transportError], waiting := false, plan := [] })) := by
  have hd := replyFrame_data r self c e q
  constructor
  · intro k _
    rw [hb, read_floatBuffer, byte_roundtrip, byte_roundtrip, hd, h0, h1]
  · rcases hostOp_sendF_cases (len := 6) (by decide) u with ⟨hf, h⟩ | h
    · refine Or.inl ⟨hf, h.trans ?_⟩
      have : sentFrame (u.vars.id.setWidth 12) (6 : BitVec 4).toNat u = replyFrame r self c e q := by
        rw [hi]
        refine (sentFrame_float hb (r ++ self)).trans ?_
        rw [byte_roundtrip, byte_roundtrip, h0, h1, ← hd]
        rfl
      rw [this]
    · exact Or.inr h

/-! ### A master and a listener -/

/-- The reading of a frame without its float, up to the report (R222). -/
theorem run_control (f : Frame) {s : State} (hres : NoReset 5 s) :
    ∃ rs vs, vs.flags = (lowNibble (byteOf (maskBytes f.len f.data) 1)).setWidth 32 ∧
      Host.Core.run core 5 (startPlan (headerPlan ++ [.unpackB1, .report .control])
        { s with waiting := false, vars := { s.vars with f := f } }) =
      .next (State.finish (Report.control.result vs) (State.withEnv (s.advances 5) { s with
        buf := frameBuffer f.len f.data, cur := 2, op := none, rsp := rs, plan := [], waiting := false
        vars := vs })) := by
  obtain ⟨r, h⟩ := does_header (s := { s with waiting := false, vars := { s.vars with f := f } }) rfl
  exact ⟨_, _, rfl, run_last s (h.append (does_unpackB1 (b := byteOf (maskBytes f.len f.data) 1) _ rfl)) rfl
    rfl rfl (by omega) rfl hres⟩

/-- The reading of a frame with its float, in either order, up to the report (R222, R225). -/
theorem run_read {k : Report} {mid : List HostOp}
    (hmid : mid = [.unpackB1, .getFloat] ∨ mid = [.getFloat, .unpackB1]) (f : Frame) {s : State}
    (hres : NoReset 6 s) :
    ∃ rs vs, vs.flags = (lowNibble (byteOf (maskBytes f.len f.data) 1)).setWidth 32 ∧
      vs.target = (highNibble (byteOf (maskBytes f.len f.data) 1)).setWidth 32 ∧
      vs.p = (maskBytes f.len f.data).extractLsb' 16 32 ∧
      Host.Core.run core 6 (startPlan (headerPlan ++ (mid ++ [.report k]))
        { s with waiting := false, vars := { s.vars with f := f } }) =
      .next (State.finish (k.result vs) (State.withEnv (s.advances 6) { s with
        buf := frameBuffer f.len f.data, cur := 6, op := none, rsp := rs, plan := [], waiting := false
        vars := vs })) := by
  have hl := f.len.isLt
  have hm : ∀ k, k < 8 → Memory.read (frameBuffer f.len f.data) k = byteOf (maskBytes f.len f.data) k :=
    fun k _ => read_frameBuffer _ k (by omega)
  obtain ⟨r, h⟩ := does_header (s := { s with waiting := false, vars := { s.vars with f := f } }) rfl
  rcases hmid with rfl | rfl
  · exact ⟨_, _, rfl, rfl, rfl, run_last s (h.append ((does_unpackB1 (b := byteOf (maskBytes f.len f.data) 1)
      _ rfl).append (does_getFloat (d := maskBytes f.len f.data) _ hm rfl))) rfl rfl rfl (by omega) rfl hres⟩
  · exact ⟨_, _, rfl, rfl, rfl, run_last s (h.append ((does_getFloat (d := maskBytes f.len f.data)
      _ hm rfl).append (does_unpackB1 (b := byteOf (maskBytes f.len f.data) 1) _ rfl))) rfl rfl rfl (by omega)
      rfl hres⟩

/-! ### A frame whose command id names no command (R205, R206) -/

/-- The step in which a host takes up such a frame: a responder drops it, a master or a listener reads it. -/
theorem step_unassigned {s : State} (h : Reads s) (hr : s.role ≠ .poll) (hb : s.role ≠ .bringUp)
    (hf : HoldsUnassigned s) :
    step s = .next (receive dropPlan s.response.frame.len s.response.frame.data s.advance) := by
  obtain ⟨ho, hw, hrs⟩ := h
  obtain ⟨hst, hh, hd⟩ := hf
  have hc : (cmdOf s.response.frame.data).toNat = s.response.frame.data.toNat % 256 / 16 := by
    simp [cmdOf, Nat.shiftRight_eq_div_pow]; omega
  obtain ⟨er, he⟩ : ∃ er, decode (.payload s.response.frame.len s.response.frame.data) = .error er := by
    unfold decode decodePayload
    dsimp only
    split <;> first | omega | exact ⟨_, rfl⟩
  have h0 : fetch s.advance = .run (.payload s.response.frame.len s.response.frame.data) s.advance := by
    simp [fetch, hrs, ho, hw, hostResponse, hst, hh, hr, hb]
  rw [step, h0]
  simp only [he, reject]

/-- What `receive` sets out on, by the host's role (R238). -/
theorem receive_plan {serve plan : List HostOp} {len : Fin 9} {data : Payload} {s : State}
    (hp : plan = match s.role with
      | .request | .poll | .bringUp => serve
      | .reply c => readReplyPlan c
      | .broadcast => readBroadcastPlan) :
    receive serve len data s = startPlan plan { s with
      waiting := false, vars := { s.vars with f := { id := s.response.frame.id, len := len, data := data } } } := by
  rw [hp]; rfl

/-- The buffer of a loaded frame holds its bytes (R133). -/
theorem holdsBytes_frameBuffer (f : Frame) : HoldsBytes f (frameBuffer f.len f.data) := by
  intro k _
  have hl := f.len.isLt
  rw [read_frameBuffer _ _ (by omega), byteOf_maskBytes]

/-- The float of a loaded frame (R84). -/
theorem floatIn_frameBuffer (f : Frame) :
    floatIn (frameBuffer f.len f.data) = (maskBytes f.len f.data).extractLsb' 16 32 := by
  have hl := f.len.isLt
  have h : ∀ k, Memory.read (frameBuffer f.len f.data) k = byteOf (maskBytes f.len f.data) k :=
    fun k => read_frameBuffer _ _ (by omega)
  rw [floatIn, h, h, h, h]
  generalize maskBytes f.len f.data = d
  simp only [byteOf]
  rw [BitVec.extractLsb'_append_extractLsb'_eq_extractLsb' (by omega),
    BitVec.extractLsb'_append_extractLsb'_eq_extractLsb' (by omega),
    BitVec.extractLsb'_append_extractLsb'_eq_extractLsb' (by omega)]

/-! ### Sending -/

/-- An act of the host's script that sets out on a sequence: its first line is the first step. -/
theorem run_act {a : HostAct} {rest : List HostAct} {plan : List HostOp} {s : State} (n : Nat)
    (h : Acts a rest s) (ha : ∀ t, hostAct a t = .host (startPlan plan t)) :
    Host.Core.run core (n + 1) s = Host.Core.run core n (startPlan plan { s.advance with script := rest }) := by
  obtain ⟨h1, h2, h3, h4, h5⟩ := h
  refine run_next n ?_
  simp [step, fetch, h1, h2, h3, h4, h5, ha]

/-- The lines of a master's request before its `SENDF` (R222). -/
theorem does_request (c : CmdId) (d t g : BitVec 16) (v : Word32) (s : State) : ∃ rs vs,
    vs.id = (packIdent d s.selfOperand).setWidth 32 ∧
    Does ([.clear, .packCommand c, .addB0, .packB1 (requestTarget c t) (requestFlags c g), .addB1] ++
        (if carriesFloat c then [.addFloat v] else []) ++ [.packTo d]) s { s with
      buf := if carriesFloat c then floatBuffer
          ((packNibbles ((cmdCode c).setWidth 16) (s.seq.setWidth 16)).setWidth 32)
          ((packNibbles (requestTarget c t) (requestFlags c g)).setWidth 32) v
        else headerBuffer ((packNibbles ((cmdCode c).setWidth 16) (s.seq.setWidth 16)).setWidth 32)
          ((packNibbles (requestTarget c t) (requestFlags c g)).setWidth 32)
      cur := if carriesFloat c then 6 else 2, op := none, rsp := rs, seq := s.seq + 1, vars := vs } := by
  obtain ⟨r1, h1⟩ := does_build (s := s) (a := requestTarget c t) (b := requestFlags c g)
    (does_packCommand c { s with buf := [], cur := 0, op := none, rsp := Response.ok :: s.rsp }) rfl rfl rfl
  cases carriesFloat c
  · exact ⟨_, _, rfl, h1.append (does_packTo d _)⟩
  · exact ⟨_, _, rfl, (h1.append (does_addFloat v _ rfl rfl)).append (does_packTo d _)⟩

/-- A master's request, up to its `SENDF`, which is the last step (R222). -/
theorem run_request {c : CmdId} {d t g : BitVec 16} {v : Word32} {rest : List HostAct} {n : Nat} {s : State}
    (h : Acts (.request c d t g v) rest s) (hc : c ≠ .broadcastDatapoint)
    (hn : n = if carriesFloat c then 8 else 7) (hr : NoReset n s) :
    ∃ rs vs, vs.id = (packIdent d s.selfOperand).setWidth 32 ∧
      Host.Core.run core n s = .next (hostOp (.sendF (requestLen c)) (State.withEnv (s.advances n) { s with
        buf := if carriesFloat c then floatBuffer
            ((packNibbles ((cmdCode c).setWidth 16) (s.seq.setWidth 16)).setWidth 32)
            ((packNibbles (requestTarget c t) (requestFlags c g)).setWidth 32) v
          else headerBuffer ((packNibbles ((cmdCode c).setWidth 16) (s.seq.setWidth 16)).setWidth 32)
            ((packNibbles (requestTarget c t) (requestFlags c g)).setWidth 32)
        cur := if carriesFloat c then 6 else 2, op := none, rsp := rs, seq := s.seq + 1
        plan := [.packFrom d, .awaitReply c], script := rest, vars := vs })) := by
  obtain ⟨k, rfl⟩ : ∃ k, n = k + 1 := ⟨n - 1, by rw [hn]; split <;> rfl⟩
  have hs : s.advance = State.withEnv s.advance s := advance_eq_withEnv s
  rw [run_act (plan := requestPlan c d t g v) k h (fun t => by cases c <;> first | rfl | exact absurd rfl hc),
    show ({ s.advance with script := rest } : State) = State.withEnv s.advance { s with script := rest } by
      rw [hs]; rfl]
  obtain ⟨rs, vs, h1, h2⟩ := does_request c d t g v (State.withEnv s.advance { s with script := rest })
  have hk : k = if carriesFloat c then 7 else 6 := by
    cases hf : carriesFloat c <;> simp [hf] at hn ⊢ <;> omega
  have hl := run_last s.advance (n := k) (last := .sendF (requestLen c)) (rest := [.packFrom d, .awaitReply c])
    (plan := requestPlan c d t g v) h2 (by simp [requestPlan]) rfl (by rw [hk]; cases carriesFloat c <;> rfl)
    (by rw [hk]; cases carriesFloat c <;> simp) h.2.1 hr.tail
  refine ⟨rs, vs, h1, hl.trans (congrArg (fun u => Host.Outcome.next (hostOp (.sendF (requestLen c)) u)) ?_)⟩
  rw [advances_succ]
  rfl

/-- The lines of a broadcast datapoint before its `SENDF` (R239). -/
theorem does_broadcast (st ch : BitVec 16) (v : Word32) (s : State) : ∃ rs vs,
    vs.id = (packIdent (bcast.setWidth 16) s.selfOperand).setWidth 32 ∧
    Does [.clear, .packB0 7 0, .addB0, .packB1 st ch, .addB1, .addFloat v, .packTo (bcast.setWidth 16)] s
      { s with
        buf := floatBuffer ((packNibbles 7 0).setWidth 32) ((packNibbles st ch).setWidth 32) v, cur := 6
        op := none, rsp := rs, vars := vs } := by
  obtain ⟨r1, h1⟩ := does_build (s := s) (a := st) (b := ch)
    (does_packB0 7 0 { s with buf := [], cur := 0, op := none, rsp := Response.ok :: s.rsp }) rfl rfl rfl
  exact ⟨_, _, rfl, (h1.append (does_addFloat v _ rfl rfl)).append (does_packTo _ _)⟩

/-- A broadcast datapoint, up to its `SENDF`, which is the last step (R239). -/
theorem run_broadcast {st ch : BitVec 16} {v : Word32} {rest : List HostAct} {s : State}
    (h : Acts (.broadcast st ch v) rest s) (hr : NoReset 8 s) :
    ∃ rs vs, vs.id = (packIdent (bcast.setWidth 16) s.selfOperand).setWidth 32 ∧
      Host.Core.run core 8 s = .next (hostOp (.sendF 6) (State.withEnv (s.advances 8) { s with
        buf := floatBuffer ((packNibbles 7 0).setWidth 32) ((packNibbles st ch).setWidth 32) v, cur := 6
        op := none, rsp := rs, plan := [], script := rest, vars := vs })) := by
  have hs : s.advance = State.withEnv s.advance s := advance_eq_withEnv s
  rw [run_act (plan := broadcastPlan st ch v) 7 h (fun t => rfl),
    show ({ s.advance with script := rest } : State) = State.withEnv s.advance { s with script := rest } by
      rw [hs]; rfl]
  obtain ⟨rs, vs, h1, h2⟩ := does_broadcast st ch v (State.withEnv s.advance { s with script := rest })
  refine ⟨rs, vs, h1, ?_⟩
  rw [run_last s.advance (n := 7) (last := .sendF 6) (rest := []) (plan := broadcastPlan st ch v) h2
    (by simp [broadcastPlan]) rfl (by simp) (by omega) h.2.1 hr.tail]
  refine congrArg (fun u => Host.Outcome.next (hostOp (.sendF 6) u)) ?_
  rw [advances_succ 7]
  rfl

/-! ### Awaiting -/

/-- `PACK SELF, d` as an identifier. -/
theorem packIdent_self (d : BitVec 16) (s : State) :
    ((packIdent s.selfOperand d).setWidth 32).setWidth 12 = (s.params.self ++ d.extractLsb' 0 6 : Ident) := by
  apply BitVec.eq_of_getLsbD_eq
  intro i hi
  simp only [State.selfOperand, packIdent, BitVec.getLsbD_setWidth, BitVec.getLsbD_append,
    BitVec.getLsbD_extractLsb']
  by_cases h : i < 6
  · simp [h, hi, show i < 32 by omega]
  · simp [h, hi, show i < 32 by omega, show i - 6 < 16 by omega]
    intro
    omega

/-- The node's own identifier packed, the line `last` is done in the state that this leaves (R222, R233,
R234). -/
abbrev State.packedFrom (d : BitVec 16) (s : State) : State :=
  { s with
    op := none, plan := [], rsp := Response.values ((packIdent s.selfOperand d).setWidth 32) 0 :: s.rsp
    vars := { s.vars with id := (packIdent s.selfOperand d).setWidth 32 } }

/-- The two lines of an awaiting sequence, done in a host sequence. -/
theorem run_await {d : BitVec 16} {last : HostOp} {s : State} (h : Continues [.packFrom d, last] s)
    (hr : NoReset 2 s) :
    Host.Core.run core 2 s = .next (hostOp last (State.withEnv (s.advances 2) (s.packedFrom d))) := by
  have e1 : hostOp (.packFrom d) { s.advance with plan := [last] } =
      State.withEnv s.advance { s.packedFrom d with plan := [last] } := by
    rw [hostOp_packFrom, advance_eq_withEnv s]
    rfl
  have s1 := step_continues h
  rw [e1] at s1
  have s2 := step_continues (o := last) (rest := [])
    (s := State.withEnv s.advance { s.packedFrom d with plan := [last] })
    ⟨rfl, h.2.1, rfl, by rw [withEnv_advance]; exact hr.tail.head⟩
  rw [withEnv_advance] at s2
  exact (run_next 1 s1).trans (run_next 0 s2)

/-- The same as an act of the host's script. -/
theorem run_await_act {a : HostAct} {rest : List HostAct} {d : BitVec 16} {last : HostOp} {s : State}
    (h : Acts a rest s) (ha : ∀ t, hostAct a t = .host (startPlan [.packFrom d, last] t)) (hr : NoReset 2 s) :
    Host.Core.run core 2 s =
      .next (hostOp last (State.withEnv (s.advances 2) ({ s with script := rest }.packedFrom d))) := by
  have e1 : startPlan [.packFrom d, last] { s.advance with script := rest } =
      State.withEnv s.advance { ({ s with script := rest } : State).packedFrom d with plan := [last] } := by
    rw [startPlan, planStep]
    show hostOp (.packFrom d) _ = _
    rw [hostOp_packFrom, advance_eq_withEnv s]
    rfl
  have s2 := step_continues (o := last) (rest := [])
    (s := State.withEnv s.advance { ({ s with script := rest } : State).packedFrom d with plan := [last] })
    ⟨rfl, h.2.1, rfl, by rw [withEnv_advance]; exact hr.tail.head⟩
  rw [withEnv_advance] at s2
  rw [run_act 1 h ha, e1]
  exact run_next 0 s2

end Sys2Proof.Machine
end

