-- ==== Sys2Proof/Tests/Slice0.lean ====
section
/-! SUPPORT. The model's own tests: ill-formed terms, decoding of words written out from the spec's tables,
vectors of spec/95_test_vectors.md (named by their number), a step each but for the host sequences, which take
a step a line, and a witness for every statement that has hypotheses. -/

namespace Sys2Proof.Tests

open Sys2Proof Sys2Proof.Machine

/-! ### Helpers -/

/-- The next state of an outcome. -/
def after (o : Host.Outcome State Fault Refusal) : State :=
  match o with
  | .next t => t
  | _ => State.reset

/-- The state after a first step's outcome and `n` further steps. -/
def afterRun (n : Nat) (o : Host.Outcome State Fault Refusal) : State :=
  match o with
  | .next t => after (Host.Core.run core n t)
  | _ => State.reset

/-- A node that is up: after reset and bring-up. -/
def up : State := { State.reset with plan := [] }

/-- A node whose buffer holds the bytes of `v`, address 0 least significant. -/
def codec (v : Payload) (cur : BitVec 4) : State :=
  { up with buf := Memory.writeN [] 0 8 v, cur := cur }

/-- A node with a queue and a backlog. -/
def matcher (pq tq : List Frame) : State := { up with pq := pq, tq := tq }

/-- A node that waits, in a role, with a frame just returned to it. -/
def received (role : Role) (f : Frame) : State :=
  { up with waiting := true, role := role, rsp := [Response.found f] }

/-- The whole buffer as one number. -/
def bytes (s : State) : Payload := Memory.readN s.buf 0 8

/-- A node of whose transport every call fails. -/
def broken (s : State) : State := { s with link :=
  { readFails := true, availFails := true, writeFails := true, flushFails := true
    flushLeaves := [{ id := 0x049, len := 2, data := 0x009A }], lag := 0, hardReset := false } }

/-- A tick in which a call of the transport's read fails, and nothing else happens. -/
def readFailTick : Tick :=
  { elapsed := 0, arrivals := [], link := { Link.quiet with readFails := true } }

/-- A tick in which nothing happens. -/
def quietTick : Tick := { elapsed := 0, arrivals := [], link := Link.quiet }

-- the frames of 95_test_vectors.md
def f1 : Frame := { id := 0x0C2, len := 2, data := 0x2058 }
def f2 : Frame := { id := 0x045, len := 6, data := 0x2025 }
def f3 : Frame := { id := 0xFC7, len := 6, data := 0x411CF5C33170 }
def f4 : Frame := { id := 0x049, len := 6, data := 0x474E4F50009A }
def f5 : Frame := { id := 0x045, len := 6, data := 0x3F8000002069 }
def rq : Frame := { id := 0x141, len := 6, data := 0x3FC000002025 }

/-- Envelope of a test, without a tail. -/
def env (len : Fin 9) (seq target flags : Nibble) (value : Word32) : Envelope :=
  { len := len, seq := seq, target := target, flags := flags, value := value, tail := 0 }

/-! ### Ill-formed terms are refused (R11, R24) -/

-- a frame of two bytes cannot carry a float, nor one of one byte a target
theorem test_illFormed_eStop : WellFormed (.eStop (env 2 0 0 0 1)) = false := by decide

theorem test_illFormed_calibrate : WellFormed (.calibrate (env 1 0 1 0 0)) = false := by decide

theorem test_illFormed_setMotorPosition : WellFormed (.setMotorPosition (env 2 0 0 0 1)) = false := by decide

theorem test_illFormed_setMotorSpeed : WellFormed (.setMotorSpeed (env 1 0 1 0 0)) = false := by decide

theorem test_illFormed_toggleState : WellFormed (.toggleState (env 2 0 0 0 1)) = false := by decide

theorem test_illFormed_getMotorPosition : WellFormed (.getMotorPosition (env 1 0 1 0 0)) = false := by decide

theorem test_illFormed_getMotorSpeed : WellFormed (.getMotorSpeed (env 2 0 0 0 1)) = false := by decide

theorem test_illFormed_broadcastDatapoint :
    WellFormed (.broadcastDatapoint (env 1 0 1 0 0)) = false := by decide

theorem test_illFormed_requestDatapoint : WellFormed (.requestDatapoint (env 2 0 0 0 1)) = false := by decide

theorem test_illFormed_ping : WellFormed (.ping (env 1 0 1 0 0)) = false := by decide

theorem test_illFormed_tail : WellFormed (.ping { env 6 0 0 0 0 with tail := 0x0100 }) = false := by decide

theorem test_illFormed_empty : WellFormed (.eStop (env 0 1 0 0 0)) = false := by decide

theorem test_wellFormed_empty : WellFormed (.eStop (env 0 0 0 0 0)) = true := by decide

theorem test_wellFormed_full :
    WellFormed (.ping { env 8 15 15 15 0xFFFFFFFF with tail := 0xFFFF }) = true := by decide

/-! ### Decoding: one word a constructor, from the tables of R87, R89 and R91 -/

/-- R87, R89; vector E3: ignored bits. -/
theorem test_decode_clear : decode (.word 0x000000000000DEADBEEF) = .ok .clear := by decide

/-- R87, R89; vector K3. -/
theorem test_decode_addU8 : decode (.word 0x010000000000000001FF) = .ok (.addU8 0x1FF) := by decide

/-- R87, R89; vector K6. -/
theorem test_decode_addU16 : decode (.word 0x0200000000000000BEEF) = .ok (.addU16 0xBEEF) := by decide

/-- R87, R89; vector K9d. -/
theorem test_decode_addBool : decode (.word 0x030000000000FFFFFFFF) = .ok (.addBool 0xFFFFFFFF) := by decide

/-- R87, R89; vector K10. -/
theorem test_decode_addFloat : decode (.word 0x0400000000003FC00000) = .ok (.addFloat 0x3FC00000) := by decide

/-- R87, R89; vector K14. -/
theorem test_decode_getU8 : decode (.word 0x05000000000000000000) = .ok .getU8 := by decide

/-- R87, R89; vector K15. -/
theorem test_decode_getU16 : decode (.word 0x06000000000000000000) = .ok .getU16 := by decide

/-- R87, R89; vector K18a. -/
theorem test_decode_getBool : decode (.word 0x07000000000000000000) = .ok .getBool := by decide

/-- R87, R89; vector K16. -/
theorem test_decode_getFloat : decode (.word 0x08000000000000000000) = .ok .getFloat := by decide

/-- R87, R89; vector K21. -/
theorem test_decode_getBuf : decode (.word 0x09000000000000000000) = .ok .getBuf := by decide

/-- R87, R89; vector K20. -/
theorem test_decode_getLen : decode (.word 0x0A000000000000000000) = .ok .getLen := by decide

/-- R87, R89; vector K23. -/
theorem test_decode_putBuf :
    decode (.word 0x0B090807060504030201) = .ok (.putBuf 9 0x0807060504030201) := by decide

/-- R87, R89; vector A8b. -/
theorem test_decode_pack : decode (.word 0x100000ABCDEF00050001) = .ok (.pack 5 1) := by decide

/-- R87, R89; vector A11. -/
theorem test_decode_unpack : decode (.word 0x11000000000000001141) = .ok (.unpack 0x1141) := by decide

/-- R87, R89; vector A14. -/
theorem test_decode_packNib : decode (.word 0x12000000000000120035) = .ok (.packNib 0x12 0x35) := by decide

/-- R87, R89; vector A19. -/
theorem test_decode_unpackNib : decode (.word 0x130000000000000001A5) = .ok (.unpackNib 0x1A5) := by decide

/-- R87, R89; vector M1. -/
theorem test_decode_tryTake : decode (.word 0x20000000000000450FFF) = .ok (.tryTake 0x045 0xFFF) := by decide

/-- R87, R89; vector M4. -/
theorem test_decode_readM : decode (.word 0x2100000000000FC00FC0) = .ok (.readM 0xFC0 0xFC0) := by decide

/-- R87, R89; vector M5. -/
theorem test_decode_readMT :
    decode (.word 0x22000000006400450FFF) = .ok (.readMT 100 0x045 0xFFF) := by decide

/-- R87, R89; vector M11. -/
theorem test_decode_availM : decode (.word 0x23000000000001400FC0) = .ok (.availM 0x140 0xFC0) := by decide

/-- R87, R89; vector M13. -/
theorem test_decode_mReset : decode (.word 0x24000000000000000000) = .ok .mReset := by decide

/-- R87, R89; vector X5. -/
theorem test_decode_sendF : decode (.word 0x30000000000001410009) = .ok (.sendF 0x141 9) := by decide

/-- R84, R91; vector W0. -/
theorem test_decode_eStop : decode (.payload 2 0x0000) = .ok (.eStop (env 2 0 0 0 0)) := by decide

/-- R84, R91; vector W1. -/
theorem test_decode_calibrate : decode (.payload 2 0x2011) = .ok (.calibrate (env 2 1 2 0 0)) := by decide

/-- R84, R91; vector W2. -/
theorem test_decode_setMotorPosition :
    decode (.payload 6 0x3FC000002025) = .ok (.setMotorPosition (env 6 5 2 0 0x3FC00000)) := by decide

/-- R84, R91; vector W3. -/
theorem test_decode_setMotorSpeed :
    decode (.payload 6 0xC02000003036) = .ok (.setMotorSpeed (env 6 6 3 0 0xC0200000)) := by decide

/-- R84, R91; vector W4. -/
theorem test_decode_toggleState : decode (.payload 2 0x1147) = .ok (.toggleState (env 2 7 1 1 0)) := by decide

/-- R84, R91; vector W5. -/
theorem test_decode_getMotorPosition :
    decode (.payload 2 0x2058) = .ok (.getMotorPosition (env 2 8 2 0 0)) := by decide

/-- R84, R91; vector W6. -/
theorem test_decode_getMotorSpeed :
    decode (.payload 2 0x2069) = .ok (.getMotorSpeed (env 2 9 2 0 0)) := by decide

/-- R84, R91; vector W7. -/
theorem test_decode_broadcastDatapoint :
    decode (.payload 6 0x411CF5C33170) = .ok (.broadcastDatapoint (env 6 0 3 1 0x411CF5C3)) := by decide

/-- R84, R91; vector W8. -/
theorem test_decode_requestDatapoint :
    decode (.payload 2 0x3189) = .ok (.requestDatapoint (env 2 9 3 1 0)) := by decide

/-- R84, R91; vector W9. -/
theorem test_decode_ping : decode (.payload 2 0x009A) = .ok (.ping (env 2 10 0 0 0)) := by decide

/-- R92; vector E1. -/
theorem test_decode_illegal : decode (.word 0x0C000000000000000000) = .error (.illegalOp 0x0C) := by decide

/-- R92; vector E4. -/
theorem test_decode_illegal_gap :
    decode (.word 0x25000000000000000000) = .error (.illegalOp 0x25) := by decide

/-- R93, R205. -/
theorem test_decode_unassigned : decode (.payload 2 0x00A0) = .error (.unassignedCommand 0xA) := by decide

/-- R93, R205. -/
theorem test_decode_unassigned_last :
    decode (.payload 2 0x00F0) = .error (.unassignedCommand 0xF) := by decide

/-! ### Command Codec, one step each -/

/-- Vector K1. -/
theorem test_clear : let t := after (exec .clear (codec 0x22113FC000002025 6))
    t.buf = [] ∧ t.cur = 0 ∧ t.rsp = [Response.ok] := by decide

/-- Vector K3. -/
theorem test_addU8_truncates : let t := after (exec (.addU8 0x1FF) (codec 0 0))
    bytes t = 0xFF ∧ t.cur = 1 := by decide

/-- Vector K5. -/
theorem test_addU8_full : after (exec (.addU8 0xEE) (codec 0 8)) =
    { codec 0 8 with rsp := [Response.error .outOfRange] } := by decide

/-- Vector K6. -/
theorem test_addU16 : let t := after (exec (.addU16 0xBEEF) (codec 0 1))
    bytes t = 0xBEEF00 ∧ t.cur = 3 := by decide

/-- Vector K8. -/
theorem test_addU16_partial : after (exec (.addU16 0x1234) (codec 0x5A00000000000000 7)) =
    { codec 0x5A00000000000000 7 with rsp := [Response.error .outOfRange] } := by decide

/-- Vectors K9b, K9c. -/
theorem test_addBool_low_bit : let t := after (exec (.addBool 2) (codec 0x770000 2))
    bytes t = 0 ∧ t.cur = 3 := by decide

/-- Vector K9d. -/
theorem test_addBool_true : bytes (after (exec (.addBool 0xFFFFFFFF) (codec 0 2))) = 0x010000 := by decide

/-- Vector K11. -/
theorem test_addFloat : let t := after (exec (.addFloat 0x411CF5C3) (codec 0 4))
    bytes t = 0x411CF5C300000000 ∧ t.cur = 8 := by decide

/-- Vector K12. -/
theorem test_addFloat_partial : (after (exec (.addFloat 0x3FC00000) (codec 0xA3A2A10000000000 5))).rsp =
    [Response.error .outOfRange] := by decide

/-- Vector K14. -/
theorem test_getU8 : let t := after (exec .getU8 (codec 0x25 0))
    t.res0 = 0x25 ∧ t.cur = 1 := by decide

/-- Vector K17. -/
theorem test_getU8_end : let t := after (exec .getU8 (codec 0 8))
    t.res0 = 0 ∧ t.cur = 8 ∧ t.response.status = .ok := by decide

/-- Vector K15. -/
theorem test_getU16_end : let t := after (exec .getU16 (codec 0xAB00000000000000 7))
    t.res0 = 0xAB ∧ t.cur = 8 := by decide

/-- Vector K18a. -/
theorem test_getBool_nonzero : let t := after (exec .getBool (codec 0x02000000 3))
    t.res0 = 1 ∧ t.cur = 4 := by decide

/-- Vector K18b. -/
theorem test_getBool_zero : (after (exec .getBool (codec 0x1100223344 3))).res0 = 0 := by decide

/-- Vector K16. -/
theorem test_getFloat_end : let t := after (exec .getFloat (codec 0x2211000000000000 6))
    t.res0 = 0x2211 ∧ t.cur = 8 := by decide

/-- Vector K21. -/
theorem test_getBuf : let t := after (exec .getBuf (codec 0x3FC000002025 6))
    t.response.word = 0x000000000000000000000800003FC000002025 ∧ t.cur = 6 := by decide

/-- Vector K20. -/
theorem test_getLen :
    (after (exec .getLen (codec 1 5))).response.word = 0x00000000080000000000000000000000000000 := by decide

/-- Vector K22. -/
theorem test_putBuf_keeps_tail : let t := after (exec (.putBuf 6 0x3FC000002025) (codec 0x8877665544332211 3))
    bytes t = 0x88773FC000002025 ∧ t.cur = 3 := by decide

/-- Vector K23. -/
theorem test_putBuf_nine : after (exec (.putBuf 9 0x0807060504030201) (codec 0x55 2)) =
    { codec 0x55 2 with rsp := [Response.error .outOfRange] } := by decide

/-! ### Address Codec, one step each -/

/-- Vector A1. -/
theorem test_pack :
    (after (exec (.pack 5 1) State.reset)).response.word = 0x00000001410000000000000000000000000000 := by decide

/-- Vector A4. -/
theorem test_pack_masks : (after (exec (.pack 64 65) State.reset)).res0 = 0x001 := by decide

/-- Vector A11. -/
theorem test_unpack : let t := after (exec (.unpack 0x1141) State.reset)
    t.res0 = 5 ∧ t.res1 = 1 := by decide

/-- Vector A16. -/
theorem test_packNib : (after (exec (.packNib 7 16) State.reset)).res0 = 0x70 := by decide

/-- Vector A19. -/
theorem test_unpackNib : let t := after (exec (.unpackNib 0x1A5) State.reset)
    t.res0 = 10 ∧ t.res1 = 5 := by decide

/-! ### Frame Matcher, one step each -/

/-- Vector M2. -/
theorem test_tryTake_first : let t := after (exec (.tryTake 0x045 0xFFF) (matcher [f1, f2, f5] []))
    t.pq = [f1, f5] ∧ t.response.word = 0x08000000000000000004560000000000002025 := by decide

/-- Vector M17. -/
theorem test_tryTake_hit_only : let t := after (exec (.tryTake 0 0xFFF) (matcher [noFrame] []))
    t.pq = [] ∧ t.response.word = 0x08000000000000000000000000000000000000 := by decide

/-- Vectors M4 and M3, the first iteration. -/
theorem test_readM : let t := after (exec (.readM 0xFC0 0xFC0) (matcher [f1, f3] []))
    let u := after (exec (.readM 0x045 0xFFF) (matcher [] [f1, f2, f3]))
    t.pq = [f1] ∧ t.response = Response.found f3 ∧ t.op = none ∧
      u.pq = [f1] ∧ u.tq = [f2, f3] ∧ u.op = some .readM ∧ u.rsp = [] := by decide

/-- Vectors M14a, M14b and M15, the second iteration of the last two. -/
theorem test_readM_errors : let s := { matcher [f1, f3] [f2] with params := { State.reset.params with pqDepth := some 2 } }
    let t := after (exec (.readM 0x045 0xFFF) s)
    let r := { matcher [f1] [f2] with op := some .readM, opId := 0x045, opMask := 0xFFF, ticks := [readFailTick] }
    let u := after (step r)
    let v := afterRun 1 (exec (.readM 0x045 0xFFF) { s with pq := [f1], tq := [f3, f2] })
    v.rsp = [Response.error .queueFull] ∧ v.pq = [f1, f3] ∧ v.tq = [f2] ∧
    t.response.word = 0x30000000000000000000000000000000000000 ∧ t.pq = [f1, f3] ∧ t.tq = [f2] ∧
      u.response.word = 0x20000000000000000000000000000000000000 ∧ u.pq = [f1] ∧ u.tq = [f2] ∧ u.op = none := by decide

/-- Vector M6c. -/
theorem test_readMT_deadline : let t := after (exec (.readMT 0 0x045 0xFFF) (matcher [] [f1, f2]))
    t.pq = [f1] ∧ t.tq = [f2] ∧ t.rsp = [Response.ok] ∧ t.op = none := by decide

/-- Vector M5, the first iteration, and M7 to its end: F1 arrives at 5040 and F2 at 5060. -/
theorem test_readMT_waits : let o := exec (.readMT 100 0x045 0xFFF) { matcher [] [] with
        now := 5000
        ticks := [{ quietTick with elapsed := 40, arrivals := [f1] }, { quietTick with elapsed := 20, arrivals := [f2] }] }
    (after o).dl = 5100 ∧ (after o).op = some .readMT ∧ (after o).rsp = [] ∧
      (afterRun 1 o).pq = [f1] ∧ (afterRun 1 o).op = some .readMT ∧
      (afterRun 2 o).pq = [f1] ∧ (afterRun 2 o).tq = [] ∧ (afterRun 2 o).rsp = [Response.found f2] := by decide

/-- Vector M10. -/
theorem test_availM_queue : after (exec (.availM 0x045 0xFFF) (matcher [f1, f2] [f3])) =
    { matcher [f1, f2] [f3] with opId := 0x045, opMask := 0xFFF, rsp := [Response.values 1 0] } := by decide

/-- Vector M11, the first iteration. -/
theorem test_availM_drains : let t := after (exec (.availM 0x140 0xFC0) (matcher [f1] [rq, f3]))
    t.pq = [f1, rq] ∧ t.tq = [f3] ∧ t.op = some .availM := by decide

/-- Vector M13, the first iteration. -/
theorem test_mReset_discards : let t := after (exec .mReset { codec 0x25 6 with pq := [f1, f3], tq := [f4] })
    t.pq = [] ∧ t.tq = [] ∧ t.op = some .mReset ∧ bytes t = 0x25 ∧ t.cur = 6 := by decide

/-- Vector M14d, with the backlog empty. -/
theorem test_mReset_full : let s := { matcher [f1, f3] [] with params := { State.reset.params with pqDepth := some 2 } }
    (after (exec .mReset s)).rsp = [Response.ok] := by decide

/-! ### SENDF and illegal words, one step each -/

/-- Vector X2. -/
theorem test_sendF : (after (exec (.sendF 0x141 2) (codec 0x3FC000002025 6))).sent =
    [{ id := 0x141, len := 2, data := 0x2025 }] := by decide

/-- Vector X5. -/
theorem test_sendF_nine : after (exec (.sendF 0x141 9) (codec 0x25 6)) =
    { codec 0x25 6 with rsp := [Response.error .outOfRange] } := by decide

/-- Vectors E1, E2. -/
theorem test_step_illegal : let t := after (step { codec 0x25 6 with script := [.word 0xFF000000000000001234] })
    t = { codec 0x25 6 with rsp := [Response.error .illegalOp] } ∧
      t.response.word = 0x40000000000000000000000000000000000000 := by decide

/-! ### Wire commands at node 5, and the host's sequences: a step a line -/

/-- Node 5, just given a request from node 1, with the values its handlers return. -/
def node5 (len : Fin 9) (data : Payload) (returns : List (Option Word32)) : State :=
  { received .request { id := 0x141, len := len, data := data } with
    handlerReturns := returns, params := { State.reset.params with self := 5 } }

/-- The reply frame to node 1. -/
def replyTo1 (data : Payload) : Frame := { id := 0x045, len := 6, data := data }

/-- Vector W0. -/
theorem test_eStop :
    (afterRun 13 (exec (.eStop (env 2 0 0 0 0)) (node5 2 0x0000 []))).sent = [replyTo1 0x0000] := by decide

/-- Vector W1. -/
theorem test_calibrate :
    (afterRun 13 (exec (.calibrate (env 2 1 2 0 0)) (node5 2 0x2011 []))).sent = [replyTo1 0x2011] := by decide

/-- Vector W2, program S2. -/
theorem test_setMotorPosition :
    (afterRun 14 (exec (.setMotorPosition (env 6 5 2 0 0x3FC00000)) (node5 6 0x3FC000002025 [none]))).sent = [replyTo1 0x2025] := by decide

/-- Vector W3. -/
theorem test_setMotorSpeed :
    (afterRun 14 (exec (.setMotorSpeed (env 6 6 3 0 0xC0200000)) (node5 6 0xC02000003036 [none]))).sent = [replyTo1 0x3036] := by decide

/-- Vector W4. -/
theorem test_toggleState :
    (afterRun 13 (exec (.toggleState (env 2 7 1 1 0)) (node5 2 0x1147 []))).sent = [replyTo1 0x1147] := by decide

/-- Vector W5. -/
theorem test_getMotorPosition :
    (afterRun 13 (exec (.getMotorPosition (env 2 8 2 0 0)) (node5 2 0x2058 [some 0x3FC00000]))).sent = [replyTo1 0x3FC000002058] := by decide

/-- Vector W6. -/
theorem test_getMotorSpeed :
    (afterRun 13 (exec (.getMotorSpeed (env 2 9 2 0 0)) (node5 2 0x2069 [some 0x3F800000]))).sent = [replyTo1 0x3F8000002069] := by decide

/-- Vector W8. -/
theorem test_requestDatapoint :
    (afterRun 13 (exec (.requestDatapoint (env 2 9 3 1 0)) (node5 2 0x3189 [some 0x411CF5C3]))).sent = [replyTo1 0x411CF5C33189] := by decide

/-- Property T6: the handler receives (2, 1.5). -/
theorem test_setMotorPosition_handler : (afterRun 14 (exec (.setMotorPosition (env 6 5 2 0 0x3FC00000)) (node5 6 0x3FC000002025 []))).calls =
    [{ cmd := .setMotorPosition, target := some 2, flags := none, value := some 0x3FC00000 }] := by decide

/-- Vector W9. -/
theorem test_ping : let s := { received .request { id := 0x241, len := 2, data := 0x009A } with
      params := { State.reset.params with self := 9 } }
    (afterRun 13 (exec (.ping (env 2 10 0 0 0)) s)).sent = [f4] := by decide

/-- Program S5, the listener. -/
theorem test_broadcastDatapoint : (afterRun 6 (exec (.broadcastDatapoint (env 6 0 3 1 0x411CF5C3)) (received .broadcast f3))).results =
    [.datapoint 3 1 0x411CF5C3] := by decide

/-- R205, R235: a responder has no handler for it. -/
theorem test_broadcastDatapoint_dropped : let t := afterRun 6 (exec (.broadcastDatapoint (env 6 0 3 1 0x411CF5C3)) (received .request f3))
    t.sent = [] ∧ t.results = [] := by decide

/-- R193: byte1 0x2C has both flags set. -/
theorem test_reply_status : let t := afterRun 6 (exec (.getMotorSpeed (env 6 9 2 0xC 0x3F800000)) (received (.reply .getMotorSpeed) f5))
    t.results = [.motor true true 2 0x3F800000] := by decide

/-- Program S1, steps 2 to 9. -/
theorem test_master_request : let s := { up with seq := 5, script := [.request .setMotorPosition 5 2 0 0x3FC00000] }
    let t := afterRun 7 (step s)
    t.sent = [rq] ∧ t.seq = 6 ∧ t.plan = [.packFrom 5, .awaitReply .setMotorPosition] := by decide

/-- Vector W4, the request. -/
theorem test_master_request_toggle : let s := { up with seq := 7, script := [.request .toggleState 5 1 1 0] }
    (afterRun 6 (step s)).sent = [{ id := 0x141, len := 2, data := 0x1147 }] := by decide

/-- Vector W9, the request: a command without a target sends byte1 as 0. -/
theorem test_master_request_ping : let s := { up with seq := 10, script := [.request .ping 9 3 5 0] }
    (afterRun 6 (step s)).sent = [{ id := 0x241, len := 2, data := 0x009A }] := by decide

/-- Program S5, the sender. -/
theorem test_master_broadcast : let s := { up with
      params := { State.reset.params with self := 7 }, script := [.broadcast 3 1 0x411CF5C3] }
    (afterRun 7 (step s)).sent = [f3] := by decide

/-- Program S1, step 1: from reset the stale F1 is discarded before the request begins. -/
theorem test_bringUp : let s := { State.reset with tq := [f1], script := [.request .ping 9 0 0 0] }
    let t := after (Host.Core.run core 3 s)
    t = { up with script := s.script, rsp := [Response.ok], role := .bringUp } ∧
      (after (step t)).script = [] := by decide

/-! ### withFetchWord places an instruction where the next step runs it -/

theorem test_fetch_word : step (State.reset.withFetchWord 80 0x0200000000000000BEEF) =
    exec (.addU16 0xBEEF) up := rfl

theorem test_fetch_byte : (afterRun 13 (step (State.reset.withFetchWord 8 0x90))).sent =
    [{ id := 0x001, len := 6, data := 0x474E4F500090 }] := by decide

/-! ### Witnesses: states and operands that meet the hypotheses of each statement -/

/-- A node whose host has one act to do. -/
def acting (a : HostAct) : State := { up with script := [a] }

/-- A node with room for `d` frames in its queue. -/
def bounded (d : Nat) (pq tq : List Frame) : State :=
  { matcher pq tq with params := { State.reset.params with pqDepth := some d } }

/-- A node in which `k` is in progress, with the filter for exactly 0x045. -/
def busy (k : MatcherOp) (pq tq : List Frame) : State :=
  { matcher pq tq with op := some k, opId := 0x045, opMask := 0xFFF }

/-- A tick that asserts hardware reset. -/
def resetTick : Tick := { elapsed := 7, arrivals := [f1], link := { Link.quiet with hardReset := true } }

theorem witness_AppendWritesValueAtCursor : appendOf (.addFloat 7) = some (4, 7) ∧ (codec 1 4).buf.wf = true ∧
    (codec 1 4).cur.toNat + 4 ≤ bufBytes := by decide

theorem witness_AppendWritesValueAtCursor_last : appendOf (.addU8 0x1FF) = some (1, 0xFF) ∧ (codec 1 7).buf.wf = true ∧
    (codec 1 7).cur.toNat + 1 ≤ bufBytes := by decide

theorem witness_AppendWritesValueAtCursor_past : appendOf (.addFloat 7) = some (4, 7) ∧ (codec 1 5).buf.wf = true ∧
    bufBytes < (codec 1 5).cur.toNat + 4 := by decide

theorem witness_TypedReadReturnsBytesFromCursor :
    readSize .getFloat = some 4 ∧ readSize .getBool = some 1 := by decide

theorem witness_PutBufWritesFirstBytes : (codec 1 5).buf.wf = true ∧ (8 : BitVec 4).toNat ≤ 8 ∧ (0 : BitVec 4).toNat ≤ 8 ∧
    9 ≤ (9 : BitVec 4).toNat := by decide

theorem witness_OutOfRangeChangesNothing : appendOf (.addU8 7) = some (1, 7) ∧ bufBytes < (codec 1 8).cur.toNat + 1 ∧
    9 ≤ (9 : BitVec 4).toNat ∧ 9 ≤ (15 : BitVec 4).toNat := by decide

theorem witness_OnlyClearLowersCursor : envelope? (.addU8 1) = none ∧ Instr.addU8 1 ≠ .clear ∧ (codec 1 8).cur.toNat ≤ 8 ∧
    exec (.addU8 1) (codec 1 8) = .next (after (exec (.addU8 1) (codec 1 8))) := ⟨rfl, by decide, by decide, rfl⟩

/-- Vector K27: exactly eight bytes. -/
theorem witness_TypedSequenceRoundTrip :
    ([Typed.u8 0xA5, .u16 0x1234, .bool true, .float 0x40490FD0].map Typed.size).sum ≤ 8 := by decide

theorem witness_TryTakeRemovesFirstMatch : (matcher [f1, f2, f5] []).pq = [f1] ++ f2 :: [f5] ∧ NoneMatch 0x045 0xFFF [f1] ∧
    f2.id &&& 0xFFF = 0x045 &&& 0xFFF := ⟨rfl, by unfold NoneMatch; decide, by decide⟩

theorem witness_TryTakeRemovesFirstMatch_none :
    NoneMatch 0x045 0xFFF (matcher [f1, f3] []).pq := by unfold NoneMatch; decide

theorem witness_ReadReturnsBufferedMatchFirst : (matcher [f1, f2] [f3]).pq = [f1] ++ f2 :: [] ∧ NoneMatch 0x045 0xFFF [f1] ∧
    f2.id &&& 0xFFF = 0x045 &&& 0xFFF := ⟨rfl, by unfold NoneMatch; decide, by decide⟩

theorem witness_ReadReturnsMatchFromTransport : let s := bounded 1 [] [f2, f3]
    NoneMatch 0x045 0xFFF s.pq ∧ s.queueFull = false ∧ s.link.readFails = false ∧
      s.link.availFails = false ∧ s.tq = f2 :: [f3] ∧ f2.id &&& 0xFFF = 0x045 &&& 0xFFF := ⟨by unfold NoneMatch; decide, by decide⟩

/-- A later iteration, with room for the last frame. -/
theorem witness_ReadReturnsMatchFromTransport_later : let s := { busy .readMT [f1] [f2, f3] with
      params := { State.reset.params with pqDepth := some 2 } }
    s.queueFull = false ∧ s.link.readFails = false ∧ s.tq = f2 :: [f3] ∧
      f2.id &&& s.opMask = s.opId &&& s.opMask ∧ s.op = some .readMT ∧ NoneMatch s.opId s.opMask s.pq ∧
      s.link.availFails = false ∧ { s with op := some .readM }.op = some .readM :=
  ⟨rfl, rfl, rfl, by decide, rfl, by unfold NoneMatch; decide, rfl, rfl⟩

theorem witness_ReadQueuesNonMatchingFrame : let s := { matcher [f1] [f3, f2] with link := { Link.quiet with lag := 100 } }
    NoneMatch 0x045 0xFFF s.pq ∧ s.queueFull = false ∧ s.link.readFails = false ∧
      s.link.availFails = false ∧ s.tq = f3 :: [f2] ∧ f3.id &&& 0xFFF ≠ 0x045 &&& 0xFFF ∧
      (100 : Word32).toNat ≤ s.link.lag ∧ s.link.lag < (101 : Word32).toNat := ⟨by unfold NoneMatch; decide, by decide⟩

/-- A later iteration, at the deadline and one tick before it. -/
theorem witness_ReadQueuesNonMatchingFrame_later : let s := { busy .readMT [f1] [f3, f2] with
      now := 5000, dl := 5100, link := { Link.quiet with lag := 100 } }
    s.queueFull = false ∧ s.link.readFails = false ∧ s.tq = f3 :: [f2] ∧
      f3.id &&& s.opMask ≠ s.opId &&& s.opMask ∧ s.op = some .readMT ∧ NoneMatch s.opId s.opMask s.pq ∧
      s.link.availFails = false ∧ s.dl ≤ s.now + s.link.lag ∧ 4999 + s.link.lag < s.dl ∧
      { s with op := some .readM }.op = some .readM :=
  ⟨rfl, rfl, rfl, by decide, rfl, by unfold NoneMatch; decide, rfl, by decide, by decide, rfl⟩

theorem witness_TimedReadOnSilentTransport : let s := { matcher [f1] [] with link := { Link.quiet with lag := 100 } }
    NoneMatch 0x045 0xFFF s.pq ∧ s.link.availFails = false ∧ s.tq = [] ∧
      (100 : Word32).toNat ≤ s.link.lag ∧ s.link.lag < (101 : Word32).toNat := ⟨by unfold NoneMatch; decide, by decide⟩

/-- A later iteration, at the deadline and one tick before it. -/
theorem witness_TimedReadOnSilentTransport_later : let s := { busy .readMT [f1] [] with now := 5100, dl := 5100 }
    s.op = some .readMT ∧ NoneMatch s.opId s.opMask s.pq ∧ s.link.availFails = false ∧ s.tq = [] ∧
      s.dl ≤ s.now + s.link.lag ∧ 5099 + s.link.lag < s.dl :=
  ⟨rfl, by unfold NoneMatch; decide, rfl, rfl, by decide, by decide⟩

theorem witness_UntimedReadWaitsWhileTransportSilent : let s := busy .readM [f1] []
    NoneMatch 0x045 0xFFF s.pq ∧ s.queueFull = false ∧ s.link.readFails = false ∧ s.tq = [] ∧
      s.op = some .readM ∧ s.advance.link.hardReset = false ∧ s.advance.link.readFails = false ∧
      s.advance.tq = [] := ⟨by unfold NoneMatch; decide, by decide⟩

theorem witness_FullQueueStopsBeforeTheRead : let s := bounded 2 [f1, f3] [f2]
    NoneMatch 0x045 0xFFF s.pq ∧ s.params.pqDepth = some 2 ∧ 2 ≤ s.pq.length ∧ s.tq ≠ [] ∧
      s.link.availFails = false := ⟨by unfold NoneMatch; decide, by decide⟩

/-- Vector M14b: the queue is full in the second iteration. -/
theorem witness_FullQueueStopsBeforeTheRead_later : let s := { busy .readMT [f1, f3] [f2] with
      params := { State.reset.params with pqDepth := some 2 } }
    s.params.pqDepth = some 2 ∧ 2 ≤ s.pq.length ∧ s.tq ≠ [] ∧ s.link.availFails = false ∧
      s.op = some .readMT ∧ NoneMatch s.opId s.opMask s.pq ∧ { s with op := some .readM }.op = some .readM ∧
      { s with op := some .availM }.op = some .availM :=
  ⟨rfl, by decide, by decide, rfl, rfl, by unfold NoneMatch; decide, rfl, rfl⟩

theorem witness_TransportFailureEndsOperation : let s := broken (matcher [f1] [f2])
    NoneMatch 0x045 0xFFF s.pq ∧ s.queueFull = false ∧ s.link.readFails = true ∧ s.askOrReadFails ∧
      s.link.availFails = true ∧ s.link.writeFails = true ∧ (8 : BitVec 4).toNat ≤ 8 ∧ s.params.offersFlush = false :=
  ⟨by unfold NoneMatch; decide, rfl, rfl, Or.inl rfl, by decide⟩

/-- Availability is answered and the read fails, in an iteration that is not the first. -/
theorem witness_TransportFailureEndsOperation_read : let s := { busy .readMT [f1] [f2] with
      link := { Link.quiet with readFails := true } }
    NoneMatch s.opId s.opMask s.pq ∧ s.queueFull = false ∧ s.link.readFails = true ∧ s.askOrReadFails ∧
      s.link.availFails = false ∧ s.tq ≠ [] ∧ s.params.offersFlush = false :=
  ⟨by unfold NoneMatch; decide, rfl, rfl, Or.inr ⟨by decide, rfl, rfl⟩, by decide⟩

theorem witness_TransportFailureEndsOperation_flush : let s := broken { matcher [f1] [f2] with params := { State.reset.params with offersFlush := true } }
    s.link.flushFails = true ∧ s.params.offersFlush = true := by decide

theorem witness_AvailabilityCheckDrainsTransport : (∃ f ∈ (matcher [f1, f2] []).pq, f.id &&& 0xFFF = 0x045 &&& 0xFFF) ∧ NoneMatch 0x045 0xFFF (matcher [f1] []).pq ∧
    (matcher [f1] []).link.availFails = false ∧ (matcher [f1] []).tq = [] := ⟨by decide, by unfold NoneMatch; decide, by decide⟩

theorem witness_AvailabilityCheckDrainsTransport_drain : let s := bounded 2 [f1] [f3]
    NoneMatch 0x045 0xFFF s.pq ∧ s.link.availFails = false ∧ s.link.readFails = false ∧
      s.queueFull = false ∧ s.tq = f3 :: [] := ⟨by unfold NoneMatch; decide, by decide⟩

/-- The end of a drain: with a match queued, without one, and with a frame still to read. -/
theorem witness_AvailabilityCheckDrainsTransport_recheck : let s := busy .availM [f1, f2] []
    let t := busy .availM [f1] []
    let u := busy .availM [f1] [f3]
    s.op = some .availM ∧ s.link.availFails = false ∧ s.tq = [] ∧
      (∃ f ∈ s.pq, f.id &&& s.opMask = s.opId &&& s.opMask) ∧
      t.op = some .availM ∧ t.link.availFails = false ∧ t.tq = [] ∧ NoneMatch t.opId t.opMask t.pq ∧
      u.op = some .availM ∧ u.link.readFails = false ∧ u.queueFull = false ∧ u.tq = f3 :: [] :=
  ⟨rfl, rfl, rfl, by decide, rfl, rfl, rfl, by unfold NoneMatch; decide, rfl, rfl, rfl, rfl⟩

theorem witness_MatcherResetDropsQueueAndBacklog : let s := { matcher [f1] [f4] with params := { State.reset.params with offersFlush := true } }
    s.params.offersFlush = true ∧ s.link.flushFails = false := by decide

theorem witness_MatcherResetDropsQueueAndBacklog_reads : (matcher [f1] []).params.offersFlush = false ∧ (matcher [f1] []).link.availFails = false ∧
    (matcher [f1] []).tq = [] ∧ (matcher [f1] [f4]).link.readFails = false ∧ (matcher [f1] [f4]).tq = f4 :: [] := by decide

theorem witness_MatcherResetRunsToEmptyBacklog : let s := { busy .mReset [] [f1, f4] with ticks := [quietTick, quietTick] }
    s.op = some .mReset ∧ s.pq = [] ∧ s.params.offersFlush = false ∧
      ∀ k ∈ s.ticks.take (s.tq.length + 1), k.arrivals = [] ∧ k.link.calm := ⟨rfl, rfl, rfl, by simp [busy, matcher, quietTick, Link.calm, Link.quiet]⟩

theorem witness_UntimedReadReturnsEarliestMatch : let s := { busy .readM [] [f1, f2, f3] with ticks := [{ quietTick with arrivals := [f4] }] }
    s.op = some .readM ∧ s.params.pqDepth = none ∧ s.tq = [f1] ++ f2 :: [f3] ∧
      NoneMatch s.opId s.opMask [f1] ∧ f2.id &&& s.opMask = s.opId &&& s.opMask ∧
      ∀ k ∈ s.ticks.take 2, k.link.calm := ⟨rfl, rfl, rfl, by unfold NoneMatch; decide, by decide,
    by simp [quietTick, Link.calm, Link.quiet]⟩

theorem witness_ReadsLoseAndReorderNoFrame : MatcherOp.readM ≠ .mReset ∧ (busy .readM [f1] [f2]).op = some .readM ∧ (busy .readM [f1] [f2]).Inv := by
  refine ⟨by decide, rfl, ?_⟩
  constructor <;> simp [busy, matcher, up, State.reset, Memory.wf, Memory.wfFrom, f1, anyMatch, Frame.isMatch]
  all_goals decide

theorem witness_TimedReadAnswersOnlyAfterDeadline : let s := { busy .readMT [] [] with now := 5000, dl := 5000 }
    s.op = some .readMT ∧ (iterReadMT s).rsp = Response.ok :: s.rsp ∧ s.dl ≤ s.now + s.link.lag := by decide

theorem witness_SendHandsOverBufferBytes : (8 : BitVec 4).toNat ≤ 8 ∧ (codec 1 6).link.writeFails = false ∧
    (broken (codec 1 6)).link.writeFails = true ∧ 9 ≤ (9 : BitVec 4).toNat := by decide

theorem witness_CodecAndMatcherStateAreDisjoint : let s := codec 0x25 0
    exec .getU8 s = .next (after (exec .getU8 s)) ∧ exec (.addU8 1) s = .next (after (exec (.addU8 1) s)) ∧
      exec (.pack 1 2) s = .next (after (exec (.pack 1 2) s)) ∧
      exec (.putBuf 9 0) s = .next (after (exec (.putBuf 9 0) s)) ∧
      exec .mReset s = .next (after (exec .mReset s)) ∧ (busy .availM [] [f1]).op = some .availM :=
  ⟨rfl, rfl, rfl, rfl, rfl, rfl⟩

theorem witness_StepKeepsInvariant : State.reset.Inv ∧ step State.reset = .next (after (step State.reset)) := by
  refine ⟨?_, rfl⟩
  constructor <;> simp [State.reset, Memory.wf, Memory.wfFrom]

theorem witness_OneResponsePerOperation : envelope? (.readM 1 2) = none ∧
    exec (.readM 1 2) State.reset = .next (after (exec (.readM 1 2) State.reset)) ∧
    (busy .availM [] []).op = some .availM := ⟨rfl, rfl, rfl⟩

theorem witness_BusyBlockAcceptsNoCommand : let s := { busy .readM [] [] with script := [.word 0] }
    s.op = some .readM ∧ s.advance.link.hardReset = false ∧ step s = .next (after (step s)) := ⟨rfl, rfl, rfl⟩

theorem witness_ParametersFixedAndTimeMonotone : step State.reset = .next (after (step State.reset)) := rfl

theorem witness_HardwareResetAbandonsOperation : let s := { busy .readM [f1] [f2] with ticks := [resetTick] }
    s.advance.link.hardReset = true := by decide

/-- A master between its send and its wait. -/
theorem witness_RestartBringsNodeUpAnew : let s := { State.reset with
      ticks := [resetTick], seq := 9, plan := [.packFrom 5, .awaitReply .ping] }
    s.advance.link.hardReset = true ∧ (after (step s)).plan = [.resetMatcher] := by decide

/-- Bring-up from reset, on a backlog of one frame and on an empty one, and by the transport's flush. -/
theorem witness_RestartBringsNodeUpAnew_run : let s := { State.reset with tq := [f1] }
    let f := { s with params := { s.params with offersFlush := true } }
    Continues [.resetMatcher] s ∧ s.params.offersFlush = false ∧ 3 = s.tq.length + 2 ∧
      2 = State.reset.tq.length + 2 ∧ (∀ k ∈ s.ticks.take 3, k.arrivals = [] ∧ k.link.calm) ∧
      Continues [.resetMatcher] f ∧ f.params.offersFlush = true :=
  ⟨⟨rfl, rfl, rfl, rfl⟩, rfl, rfl, rfl, by simp [State.reset], ⟨rfl, rfl, rfl, rfl⟩, rfl⟩

theorem witness_RestartBringsNodeUpAnew_end : let s := { up with waiting := true, role := .bringUp, rsp := [Response.ok] }
    let t := { s with rsp := [Response.error .transportError] }
    Reads s ∧ s.role = .bringUp ∧ s.response.status = .ok ∧ Reads t ∧ t.response.status ≠ .ok :=
  ⟨⟨rfl, rfl, rfl⟩, rfl, rfl, ⟨rfl, rfl, rfl⟩, by decide⟩

theorem witness_DecodeOfEncodeIsTheInstruction :
    WellFormed (.setMotorSpeed (env 6 6 3 0 0xC0200000)) = true := by decide

theorem witness_CommandWordDecodesByOpcode : let cw : CommandWord := 0x22FF000000640045FFFF
    cw.toNat / 2 ^ 72 ∈ portOpcodes ∧ cw.extractLsb' 72 8 = 0x22 := by decide

theorem witness_PayloadDecodesByCommandId :
    decode (.payload 2 0x009A) = .ok (.ping (env 2 10 0 0 0)) := by decide

theorem witness_StepRunsIssuedWord : Acts (.word 0x01000000000000000025) [] (acting (.word 0x01000000000000000025)) ∧
    decode (.word 0x01000000000000000025) = .ok (.addU8 0x25) := ⟨⟨rfl, rfl, rfl, rfl, rfl⟩, by decide⟩

theorem witness_StepRunsReceivedEnvelope : let s := received .request rq
    Reads s ∧ s.role ≠ .poll ∧ s.role ≠ .bringUp ∧ s.response.status = .ok ∧ s.response.hit = true ∧
      decode (.payload s.response.frame.len s.response.frame.data) =
        .ok (.setMotorPosition (env 6 5 2 0 0x3FC00000)) := ⟨⟨rfl, rfl, rfl⟩, by decide⟩

theorem witness_UnassignedOpcodeIsIllegalOp : Acts (.word 0x0C000000000000000000) [] (acting (.word 0x0C000000000000000000)) ∧
    (0x0C000000000000000000 : CommandWord).toNat / 2 ^ 72 ∉ portOpcodes := ⟨⟨rfl, rfl, rfl, rfl, rfl⟩, by decide⟩

/-- The shortest frame: no bytes, which read as EStop. The environment's moves end within the sequence. -/
theorem witness_ControlRequestAnsweredWithZeroFloat : let s := { node5 0 0 [] with ticks := [quietTick, quietTick] }
    envelope? (.eStop (env 0 0 0 0 0)) = some (.eStop, env 0 0 0 0 0) ∧
      CmdId.eStop ∈ [CmdId.eStop, .calibrate, .toggleState] ∧ WellFormed (.eStop (env 0 0 0 0 0)) = true ∧
      s.role = .request ∧ NoReset 13 s ∧ (s.linkAt 12).writeFails = false :=
  ⟨rfl, by decide, by decide, rfl, by unfold NoReset; decide, rfl⟩

theorem witness_ValueRequestAnsweredWithHandlerValue : let e := env 2 8 2 0 0
    let s := node5 2 0x2058 [some 1]
    envelope? (.getMotorPosition e) = some (.getMotorPosition, e) ∧
      CmdId.getMotorPosition ∈ [CmdId.setMotorPosition, .setMotorSpeed, .getMotorPosition, .getMotorSpeed,
        .requestDatapoint] ∧
      WellFormed (.getMotorPosition e) = true ∧ s.role = .request ∧ ServeLines .getMotorPosition 13 ∧
      NoReset 13 s ∧ (s.linkAt 12).writeFails = false :=
  ⟨rfl, by decide, by decide, rfl, Or.inr ⟨by unfold HasFloat; decide, rfl⟩, by unfold NoReset; decide, rfl⟩

theorem witness_ValueRequestAnsweredWithHandlerValue_float : let e := env 6 5 2 0 0x3FC00000
    let s := node5 6 0x3FC000002025 [none]
    envelope? (.setMotorPosition e) = some (.setMotorPosition, e) ∧
      CmdId.setMotorPosition ∈ [CmdId.setMotorPosition, .setMotorSpeed, .getMotorPosition, .getMotorSpeed,
        .requestDatapoint] ∧
      WellFormed (.setMotorPosition e) = true ∧ s.role = .request ∧ ServeLines .setMotorPosition 14 ∧
      NoReset 14 s ∧ (s.linkAt 13).writeFails = false :=
  ⟨rfl, by decide, by decide, rfl, Or.inl ⟨Or.inl rfl, rfl⟩, by unfold NoReset; decide, rfl⟩

theorem witness_PingAnsweredWithPong : let s := node5 2 0x009A []
    WellFormed (.ping (env 2 10 0 0 0)) = true ∧ s.role = .request ∧ NoReset 13 s ∧
      (s.linkAt 12).writeFails = false := ⟨by decide, rfl, by unfold NoReset; decide, rfl⟩

theorem witness_RequestWithoutHandlerIsDropped : let s := node5 6 0x411CF5C33170 []
    WellFormed (.broadcastDatapoint (env 6 0 3 1 0x411CF5C3)) = true ∧ s.role = .request ∧ NoReset 6 s :=
  ⟨by decide, rfl, by unfold NoReset; decide⟩

theorem witness_RequestWithoutHandlerIsDropped_unassigned : let s := node5 2 0x00A0 []
    Reads s ∧ s.role = .request ∧ s.response.status = .ok ∧ s.response.hit = true ∧
      10 ≤ s.response.frame.data.toNat % 256 / 16 ∧ NoReset 7 s :=
  ⟨⟨rfl, rfl, rfl⟩, rfl, rfl, rfl, by decide, by unfold NoReset; decide⟩

/-- A tick in which a write fails, and nothing else happens. -/
def writeFailTick : Tick :=
  { elapsed := 0, arrivals := [], link := { Link.quiet with writeFails := true } }

theorem witness_FailedReplyEndsWithTransportError : let s := { node5 2 0x009A [] with
      ticks := List.replicate 13 writeFailTick }
    envelope? (.ping (env 2 10 0 0 0)) = some (.ping, env 2 10 0 0 0) ∧ CmdId.ping ≠ .broadcastDatapoint ∧
      WellFormed (.ping (env 2 10 0 0 0)) = true ∧ s.role = .request ∧ ServeLines .ping 13 ∧
      NoReset 13 s ∧ (s.linkAt 12).writeFails = true :=
  ⟨rfl, by decide, by decide, rfl, Or.inr ⟨by unfold HasFloat; decide, rfl⟩, by unfold NoReset; decide, rfl⟩

theorem witness_BroadcastDecodedByListener : let s := received .broadcast f3
    envelope? (.broadcastDatapoint (env 6 0 3 1 0x411CF5C3)) =
        some (.broadcastDatapoint, env 6 0 3 1 0x411CF5C3) ∧
      WellFormed (.broadcastDatapoint (env 6 0 3 1 0x411CF5C3)) = true ∧ s.role = .broadcast ∧ NoReset 6 s :=
  ⟨rfl, by decide, rfl, by unfold NoReset; decide⟩

/-- The least of the ids that name no command, in a frame that holds no float. -/
theorem witness_BroadcastDecodedByListener_unassigned : let s := received .broadcast { f1 with data := 0x20A0 }
    Reads s ∧ s.role = .broadcast ∧ HoldsUnassigned s ∧ NoReset 7 s :=
  ⟨⟨rfl, rfl, rfl⟩, rfl, ⟨rfl, rfl, by decide⟩, by unfold NoReset; decide⟩

theorem witness_MasterReadsReplyByCommandSent : let e := env 6 9 2 0xC 0x3F800000
    let s := received (.reply .getMotorSpeed) f5
    envelope? (.getMotorSpeed e) = some (.getMotorSpeed, e) ∧ WellFormed (.getMotorSpeed e) = true ∧
      s.role = .reply .getMotorSpeed ∧ (received (.reply .calibrate) f5).role = .reply .calibrate ∧
      (received (.reply .requestDatapoint) f5).role = .reply .requestDatapoint ∧
      (received (.reply .ping) f5).role = .reply .ping ∧ NoReset 5 s ∧ NoReset 6 s :=
  ⟨rfl, by decide, rfl, rfl, rfl, rfl, by unfold NoReset; decide, by unfold NoReset; decide⟩

/-- The greatest of the ids that name no command. -/
theorem witness_MasterReadsReplyByCommandSent_unassigned :
    let s := received (.reply .getMotorSpeed) { f5 with data := 0x3F80000020FF }
    Reads s ∧ s.role = .reply .getMotorSpeed ∧ HoldsUnassigned s ∧ NoReset 6 s ∧ NoReset 7 s ∧
      { s with role := .reply .calibrate }.role = .reply .calibrate ∧
      { s with role := .reply .ping }.role = .reply .ping :=
  ⟨⟨rfl, rfl, rfl⟩, rfl, ⟨rfl, rfl, by decide⟩, by unfold NoReset; decide, by unfold NoReset; decide, rfl, rfl⟩

theorem witness_WaitEndedWithoutFrame : let s := { received (.reply .calibrate) f5 with rsp := [Response.ok] }
    Reads s ∧ s.role ≠ .poll ∧ s.response.status = .ok ∧ s.response.hit = false ∧ CmdId.calibrate ≠ .ping ∧
      { s with role := .reply .ping }.role = .reply .ping ∧ { s with role := .request }.role = .request := ⟨⟨rfl, rfl, rfl⟩, by decide⟩

theorem witness_WaitEndedWithoutFrame_error : let s := { received (.reply .calibrate) f5 with rsp := [Response.error .queueFull] }
    Reads s ∧ s.role ≠ .poll ∧ s.response.status ≠ .ok := ⟨⟨rfl, rfl, rfl⟩, by decide⟩

/-- A node in a host sequence of which `ops` remains. -/
def inSequence (ops : List HostOp) : State := { State.reset with plan := ops }

theorem witness_HostLineIssuesPortOperation :
    Continues [.getB0, .getB1] (inSequence [.getB0, .getB1]) ∧
      HostOp.getB0.instr (inSequence [.getB0, .getB1]) = some .getU8 ∧
      HostOp.getB0.awaits = none ∧
      Continues [.pong] (inSequence [.pong]) ∧ HostOp.pong.instr (inSequence [.pong]) = none :=
  ⟨⟨rfl, rfl, rfl, rfl⟩, rfl, rfl, ⟨rfl, rfl, rfl, rfl⟩, rfl⟩

/-- A line that the host waits for, a line whose operation fails, and a report. -/
theorem witness_HostLineIssuesPortOperation_ends :
    let s := { inSequence [.sendF 9, .awaitBroadcast] with cur := 8 }
    let r := inSequence [.report .control]
    Continues [.awaitBroadcast] (inSequence [.awaitBroadcast]) ∧
      HostOp.awaitBroadcast.awaits = some .broadcast ∧
      Continues [.sendF 9, .awaitBroadcast] s ∧ (HostOp.sendF 9).instr s = some (.sendF 0 9) ∧
      (after (exec (.sendF 0 9) s)).response.status ≠ .ok ∧
      Continues [.report .control] r ∧ (HostOp.report .control).instr r = none :=
  ⟨⟨rfl, rfl, rfl, rfl⟩, rfl, ⟨rfl, rfl, rfl, rfl⟩, rfl, by decide, ⟨rfl, rfl, rfl, rfl⟩, rfl⟩

theorem witness_MasterSendsRequestFrame : let a := HostAct.request .setMotorPosition 5 2 0 0x3FC00000
    Acts a [] (acting a) ∧ CmdId.setMotorPosition ≠ .broadcastDatapoint ∧ RequestLines .setMotorPosition 8 ∧
      NoReset 8 (acting a) ∧ ((acting a).linkAt 7).writeFails = false :=
  ⟨⟨rfl, rfl, rfl, rfl, rfl⟩, by decide, Or.inl ⟨Or.inl rfl, rfl⟩, by unfold NoReset; decide, rfl⟩

theorem witness_MasterSendsRequestFrame_header : let a := HostAct.request .ping 9 0 0 0
    Acts a [] (acting a) ∧ CmdId.ping ≠ .broadcastDatapoint ∧ RequestLines .ping 7 ∧
      NoReset 7 (acting a) ∧ ((acting a).linkAt 6).writeFails = false :=
  ⟨⟨rfl, rfl, rfl, rfl, rfl⟩, by decide, Or.inr ⟨by unfold HasFloat; decide, rfl⟩, by unfold NoReset; decide, rfl⟩

theorem witness_FailedSendEndsSequence : let a := HostAct.request .ping 9 0 0 0
    let s := { acting a with ticks := List.replicate 7 writeFailTick }
    Acts a [] s ∧ CmdId.ping ≠ .broadcastDatapoint ∧ RequestLines .ping 7 ∧
      NoReset 7 s ∧ (s.linkAt 6).writeFails = true :=
  ⟨⟨rfl, rfl, rfl, rfl, rfl⟩, by decide, Or.inr ⟨by unfold HasFloat; decide, rfl⟩, by unfold NoReset; decide, rfl⟩

theorem witness_FailedSendEndsSequence_broadcast :
    let s := { acting (.broadcast 3 1 9) with ticks := List.replicate 8 writeFailTick }
    Acts (.broadcast 3 1 9) [] s ∧ NoReset 8 s ∧ (s.linkAt 7).writeFails = true :=
  ⟨⟨rfl, rfl, rfl, rfl, rfl⟩, by unfold NoReset; decide, rfl⟩

theorem witness_AwaitedFilters : let s := inSequence [.packFrom 9, .awaitReply .ping]
    Continues [.packFrom 9, .awaitReply .ping] s ∧ NoReset 2 s ∧ (s.advances 2).tq = [] ∧
      (s.advances 2).link.availFails = false ∧ (s.advances 2).link.lag = 0 ∧ 0 < s.params.tReply.toNat ∧
      NoneMatch (s.params.self ++ (9 : BitVec 16).extractLsb' 0 6) 0xFFF s.pq :=
  ⟨⟨rfl, rfl, rfl, rfl⟩, by unfold NoReset; decide, rfl, rfl, rfl, by decide, by unfold NoneMatch; decide⟩

theorem witness_AwaitedFilters_listen : let s := { acting .listen with pq := [f1] }
    Acts .listen [] s ∧ NoReset 2 s ∧ (s.advances 2).tq = [] ∧ (s.advances 2).link.availFails = false ∧
      (s.advances 2).link.lag = 0 ∧ 0 < s.params.tListen.toNat ∧
      NoneMatch (s.params.self ++ (0 : BitVec 6)) 0xFC0 s.pq :=
  ⟨⟨rfl, rfl, rfl, rfl, rfl⟩, by unfold NoReset; decide, rfl, rfl, rfl, by decide, by unfold NoneMatch; decide⟩

theorem witness_AwaitedFilters_listener : let a := HostAct.request .broadcastDatapoint 0 0 0 0
    let s := { acting a with pq := [f1] }
    Acts a [] s ∧ s.advance.tq = [] ∧ s.advance.link.readFails = false ∧ s.queueFull = false ∧
      NoneMatch 0xFC0 0xFC0 s.pq := ⟨⟨rfl, rfl, rfl, rfl, rfl⟩, rfl, rfl, rfl, by unfold NoneMatch; decide⟩

theorem witness_BroadcastFrameSent : let s := acting (.broadcast 3 1 9)
    Acts (.broadcast 3 1 9) [] s ∧ NoReset 8 s ∧ (s.linkAt 7).writeFails = false :=
  ⟨⟨rfl, rfl, rfl, rfl, rfl⟩, by unfold NoReset; decide, rfl⟩

theorem witness_PollOnceStartsAndEnds : Acts .pollOnce [] (acting .pollOnce) ∧ NoReset 2 (acting .pollOnce) :=
  ⟨⟨rfl, rfl, rfl, rfl, rfl⟩, by unfold NoReset; decide⟩

theorem witness_PollOnceStartsAndEnds_answer : let s := { received .poll f1 with rsp := [Response.values 0 0] }
    let t := { received .poll f1 with rsp := [Response.error .queueFull] }
    Reads s ∧ s.role = .poll ∧ s.response.status = .ok ∧ s.res0 = 0 ∧ Reads t ∧ t.role = .poll ∧
      t.response.status ≠ .ok := ⟨⟨rfl, rfl, rfl⟩, rfl, rfl, rfl, ⟨rfl, rfl, rfl⟩, rfl, by decide⟩

theorem witness_PollTakesAvailableFrame : let s := { received .poll f1 with
      rsp := [Response.values 1 0], pq := [f1, f2], vars := { Vars.none with id := 0x040 } }
    Reads s ∧ s.role = .poll ∧ s.response.status = .ok ∧ s.res0 ≠ 0 ∧
      s.vars.id = (s.params.self ++ (0 : BitVec 6)).setWidth 32 ∧ s.pq = [f1] ++ f2 :: [] ∧
      NoneMatch (s.params.self ++ (0 : BitVec 6)) 0xFC0 [f1] ∧ destOf f2.id = s.params.self :=
  ⟨⟨rfl, rfl, rfl⟩, rfl, rfl, by decide, rfl, rfl, by unfold NoneMatch; decide, by decide⟩

end Sys2Proof.Tests
end

