-- ==== Sys2Proof/Proofs/Scope.lean ====
section
/-! SUPPORT. What a step can touch: each port operation changes the block, its port and the transport alone, a
line of a host sequence is one port operation or an action of the host's own (R14), and every step keeps the
parameters and moves the time on (R7, R29, R264). -/

namespace Sys2Proof.Machine

/-! ### A codec or address operation -/

/-- A response given from a state in which at most the buffer and the cursor were written keeps the frame of
the codec (R33). -/
theorem codecFrame_respond (r : Response) (m : Memory) (c : BitVec 4) (s : State) :
    CodecFrame s (respond r { s with buf := m, cur := c }) := rfl

theorem codecFrame_appendOp (n : Nat) (v : Payload) (s : State) : CodecFrame s (appendOp n v s) := by
  rcases appendOp_cases n v s with ⟨-, h⟩ | ⟨-, h⟩
  all_goals rw [h]; exact codecFrame_respond ..

theorem codecFrame_putBufOp (n : Nat) (v : Payload) (s : State) : CodecFrame s (putBufOp n v s) := by
  rcases putBufOp_cases n v s with ⟨-, h⟩ | ⟨-, h⟩
  all_goals rw [h]; exact codecFrame_respond ..

/-! ### A matcher operation -/

/-- A step of the matcher: its frame is kept (R33) and the time does not go back (R264). -/
structure MatcherStep (s t : State) : Prop where
  frame : MatcherFrame s t
  now_le : s.now ≤ t.now

theorem MatcherStep.trans {s t u : State} (h₁ : MatcherStep s t) (h₂ : MatcherStep t u) : MatcherStep s u := by
  obtain ⟨f₁, n₁⟩ := h₁
  obtain ⟨f₂, n₂⟩ := h₂
  unfold MatcherFrame at f₁ f₂
  exact ⟨f₂.trans (by rw [f₁]), n₁.trans n₂⟩

theorem matcherStep_accept (k : MatcherOp) (id mask : Ident) (s : State) : MatcherStep s (accept k id mask s) :=
  ⟨rfl, le_rfl⟩

theorem matcherStep_tryTakeOp (id mask : Ident) (s : State) : MatcherStep s (tryTakeOp id mask s) := by
  rcases tryTakeOp_cases id mask s with ⟨f, q, -, h⟩ | ⟨-, h⟩
  all_goals rw [h]; exact ⟨rfl, le_rfl⟩

theorem matcherStep_iterReadM (s : State) : MatcherStep s (iterReadM s) := by
  rcases iterReadM_cases s with ⟨-, h⟩ | ⟨-, -, h⟩ | ⟨-, -, -, h⟩ | ⟨f, q, -, -, -, h⟩ | ⟨f, q, -, -, -, h⟩
  all_goals rw [h]; exact ⟨rfl, le_rfl⟩

/-- The deadline test samples the time afresh, and is where an iteration lets time pass (R155). -/
theorem matcherStep_deadlineTest (s : State) : MatcherStep s (deadlineTest s) := by
  rcases deadlineTest_cases s with ⟨-, h⟩ | ⟨-, h⟩
  all_goals rw [h]; exact ⟨rfl, Nat.le_add_right _ _⟩

theorem matcherStep_iterReadMT (s : State) : MatcherStep s (iterReadMT s) := by
  rcases iterReadMT_cases s with ⟨f, q, -, h⟩ |
    ⟨-, ⟨-, h⟩ | ⟨-, -, h⟩ | ⟨-, -, h⟩ | ⟨-, -, -, h⟩ | ⟨f, q, -, -, -, h⟩ | ⟨f, q, -, -, -, h⟩⟩
  case inr.inr.inl => rw [h]; exact matcherStep_deadlineTest s
  case inr.inr.inr.inr.inr.inr =>
    have queued : MatcherStep s (State.enqueue f.canon { s with tq := q }) := ⟨rfl, le_rfl⟩
    rw [h]
    exact queued.trans (matcherStep_deadlineTest _)
  all_goals rw [h]; exact ⟨rfl, le_rfl⟩

theorem matcherStep_iterAvailM (s : State) : MatcherStep s (iterAvailM s) := by
  rcases iterAvailM_cases s with ⟨-, h⟩ | ⟨-, -, h⟩ | ⟨-, -, -, h⟩ | ⟨-, h⟩ | ⟨f, q, -, -, h⟩
  all_goals rw [h]; exact ⟨rfl, le_rfl⟩

theorem matcherStep_iterMReset (s : State) : MatcherStep s (iterMReset s) := by
  rcases iterMReset_cases s with h | ⟨-, -, h⟩ | ⟨-, -, h⟩ | ⟨-, -, -, h⟩ | ⟨f, q, -, -, -, -, h⟩
  all_goals rw [h]; exact ⟨rfl, le_rfl⟩

/-- Every iteration of an operation in progress is a step of the matcher (R33, R161). -/
theorem matcherStep_iterate (k : MatcherOp) (s : State) : MatcherStep s (iterate k s) := by
  cases k with
  | readM => exact matcherStep_iterReadM s
  | readMT => exact matcherStep_iterReadMT s
  | availM => exact matcherStep_iterAvailM s
  | mReset => exact matcherStep_iterMReset s

theorem matcherStep_startReadM (id mask : Ident) (s : State) : MatcherStep s (startReadM id mask s) := by
  unfold startReadM
  split
  · exact ⟨rfl, le_rfl⟩
  · exact (matcherStep_accept ..).trans (matcherStep_iterReadM _)

theorem matcherStep_startReadMT (t : Word32) (id mask : Ident) (s : State) :
    MatcherStep s (startReadMT t id mask s) := by
  have timed : MatcherStep s { accept .readMT id mask s with dl := s.now + t.toNat } := ⟨rfl, le_rfl⟩
  exact timed.trans (matcherStep_iterReadMT _)

theorem matcherStep_startAvailM (id mask : Ident) (s : State) : MatcherStep s (startAvailM id mask s) := by
  unfold startAvailM
  split
  · exact ⟨rfl, le_rfl⟩
  · exact (matcherStep_accept ..).trans (matcherStep_iterAvailM _)

theorem matcherStep_startMReset (s : State) : MatcherStep s (startMReset s) := by
  have emptied : MatcherStep s { s with op := some .mReset, pq := [] } := ⟨rfl, le_rfl⟩
  exact emptied.trans (matcherStep_iterMReset _)

/-! ### Any port operation -/

/-- What a port operation can change: the block, its port and the transport (R20, R30), while the time does
not go back. The host's own part, the environment's moves and the parameters are left as they were. -/
structure PortStep (s t : State) : Prop where
  frame : t = { s with
    buf := t.buf, cur := t.cur, pq := t.pq, dl := t.dl, opId := t.opId, opMask := t.opMask, op := t.op
    rsp := t.rsp, tq := t.tq, sent := t.sent, now := t.now }
  now_le : s.now ≤ t.now

theorem PortStep.params {s t : State} (h : PortStep s t) : t.params = s.params := by rw [h.frame]
theorem PortStep.plan {s t : State} (h : PortStep s t) : t.plan = s.plan := by rw [h.frame]
theorem PortStep.waiting {s t : State} (h : PortStep s t) : t.waiting = s.waiting := by rw [h.frame]
theorem PortStep.results {s t : State} (h : PortStep s t) : t.results = s.results := by rw [h.frame]

theorem portStep_of_codecFrame {s t : State} (h : CodecFrame s t) : PortStep s t := by
  unfold CodecFrame at h
  rw [h]
  exact ⟨rfl, le_rfl⟩

theorem MatcherStep.portStep {s t : State} (h : MatcherStep s t) : PortStep s t := by
  obtain ⟨frame, now_le⟩ := h
  unfold MatcherFrame at frame
  refine ⟨?_, now_le⟩
  rw [frame]

theorem portStep_sendOp (id : Ident) (n : Nat) (s : State) : PortStep s (sendOp id n s) := by
  rcases sendOp_cases id n s with ⟨-, h⟩ | ⟨-, -, h⟩ | ⟨-, -, h⟩
  all_goals rw [h]; exact ⟨rfl, le_rfl⟩

/-- Every port operation answers a next state, in which nothing but the block, its port and the transport
changed (R30, R33). -/
theorem exec_port {i : Instr} (s : State) (h : envelope? i = none) : ∃ t, exec i s = .next t ∧ PortStep s t := by
  cases i
  case addU8 | addU16 | addBool | addFloat => exact ⟨_, rfl, portStep_of_codecFrame (codecFrame_appendOp ..)⟩
  case putBuf => exact ⟨_, rfl, portStep_of_codecFrame (codecFrame_putBufOp ..)⟩
  case clear | getU8 | getU16 | getBool | getFloat | getBuf | getLen | pack | unpack | packNib | unpackNib =>
    exact ⟨_, rfl, portStep_of_codecFrame (codecFrame_respond ..)⟩
  case tryTake => exact ⟨_, rfl, (matcherStep_tryTakeOp ..).portStep⟩
  case readM => exact ⟨_, rfl, (matcherStep_startReadM ..).portStep⟩
  case readMT => exact ⟨_, rfl, (matcherStep_startReadMT ..).portStep⟩
  case availM => exact ⟨_, rfl, (matcherStep_startAvailM ..).portStep⟩
  case mReset => exact ⟨_, rfl, (matcherStep_startMReset _).portStep⟩
  case sendF => exact ⟨_, rfl, portStep_sendOp ..⟩
  all_goals cases h

/-! ### A line of a host sequence -/

/-- A line's operation is a port operation, not a wire command. -/
theorem instr_isPort {o : HostOp} {i : Instr} {s : State} (h : o.instr s = some i) : envelope? i = none := by
  cases o <;> cases h <;> rfl

/-- The environment's move does not touch what a line takes its operands from. -/
theorem instr_advance (o : HostOp) (rest : List HostOp) (s : State) :
    o.instr { s.advance with plan := rest } = o.instr s := by
  rw [advance_eq_withEnv]
  cases o <;> rfl

/-- A line whose response the host waits for issues its operation and waits (R238). -/
theorem hostOp_awaiting {o : HostOp} {i : Instr} {r : Role} {s t : State} (hi : o.instr s = some i)
    (ha : o.awaits = some r) (ht : exec i s = .next t) : hostOp o s = t.await r := by
  cases o
  case awaitReply | awaitRequest | awaitBroadcast | availRequest | takeRequest | resetMatcher =>
    cases ha; cases hi; cases ht; rfl
  all_goals cases ha

/-- The names a line gives to the results of its operation (R222, R235). -/
def HostOp.names : HostOp → Response → Vars → Vars
  | .getB0, r, v | .packCommand _, r, v | .packB0 _ _, r, v => { v with b0 := r.res0 }
  | .getB1, r, v | .packB1 _ _, r, v => { v with b1 := r.res0 }
  | .getFloat, r, v => { v with p := r.res0 }
  | .unpackId, r, v => { v with src := r.res1 }
  | .unpackB1, r, v => { v with target := r.res0, flags := r.res1 }
  | .packTo _, r, v | .packFrom _, r, v | .packReply, r, v => { v with id := r.res0 }
  | _, _, v => v

/-- `SEQ` after a line: the packing of a command byte counts it up (R220). -/
def HostOp.seqAfter (s : State) : HostOp → Nibble
  | .packCommand _ => s.seq + 1
  | _ => s.seq

/-- Any other line with an operation issues it and reads its response (R222). -/
theorem hostOp_collecting {o : HostOp} {i : Instr} {s t : State} (hi : o.instr s = some i)
    (ha : o.awaits = none) (ht : exec i s = .next t) :
    hostOp o s = ({ t with seq := o.seqAfter t } : State).collect o.names := by
  cases o
  case awaitReply | awaitRequest | awaitBroadcast | availRequest | takeRequest | resetMatcher => cases ha
  case call | pong | report => cases hi
  case putFrame =>
    have hlen : (BitVec.ofNat 4 s.vars.f.len).toNat = s.vars.f.len.val := by
      have := s.vars.f.len.isLt
      simp only [BitVec.toNat_ofNat]
      omega
    cases hi; cases ht
    rw [hlen]
    rfl
  all_goals cases hi; cases ht; rfl

/-- Reading a response leaves the block alone. -/
theorem sameBlock_collect (bind : Response → Vars → Vars) (s : State) : SameBlock s (s.collect bind) := by
  unfold State.collect
  split <;> exact ⟨rfl, rfl, rfl, rfl, rfl, rfl, rfl, rfl, rfl, rfl, rfl⟩

theorem collect_params (bind : Response → Vars → Vars) (s : State) : (s.collect bind).params = s.params := by
  unfold State.collect
  split <;> rfl

theorem sameBlock_await (r : Role) (s : State) : SameBlock s (s.await r) :=
  ⟨rfl, rfl, rfl, rfl, rfl, rfl, rfl, rfl, rfl, rfl, rfl⟩

/-- What the host does next after a response it has read at once: nothing is awaited, an error ends the
sequence with its status, and otherwise the sequence goes on (R222, R256). -/
theorem collect_next (bind : Response → Vars → Vars) {s : State} (hw : s.waiting = false) :
    (s.collect bind).waiting = false ∧
    (s.response.status = .ok → (s.collect bind).plan = s.plan ∧ (s.collect bind).results = s.results) ∧
    (s.response.status ≠ .ok → (s.collect bind).plan = [] ∧
      (s.collect bind).results = s.results ++ [.failed s.response.status]) := by
  by_cases h : s.response.status = .ok
  · rw [collect_ok h]
    exact ⟨hw, fun _ => ⟨rfl, rfl⟩, fun h' => absurd h h'⟩
  · rw [collect_error h]
    exact ⟨rfl, fun h' => absurd h' h, fun _ => ⟨rfl, rfl⟩⟩

/-- A line with an operation: the block is as the operation leaves it, and the host either waits for the
response or has read it (R14, R256). -/
theorem hostOp_issues {o : HostOp} {i : Instr} {s : State} (hi : o.instr s = some i) (hw : s.waiting = false) :
    ∃ t, exec i s = .next t ∧ SameBlock t (hostOp o s) ∧
      (∀ r, o.awaits = some r → (hostOp o s).waiting = true ∧ (hostOp o s).role = r ∧
        (hostOp o s).plan = s.plan ∧ (hostOp o s).results = s.results) ∧
      (o.awaits = none → (hostOp o s).waiting = false ∧
        (t.response.status = .ok → (hostOp o s).plan = s.plan ∧ (hostOp o s).results = s.results) ∧
        (t.response.status ≠ .ok → (hostOp o s).plan = [] ∧
          (hostOp o s).results = s.results ++ [.failed t.response.status])) := by
  obtain ⟨t, ht, port⟩ := exec_port s (instr_isPort hi)
  refine ⟨t, ht, ?_⟩
  rw [← port.plan, ← port.results]
  cases ha : o.awaits with
  | some r =>
    rw [hostOp_awaiting hi ha ht]
    refine ⟨sameBlock_await r t, ?_, nofun⟩
    rintro _ ⟨rfl⟩
    exact ⟨rfl, rfl, rfl, rfl⟩
  | none =>
    rw [hostOp_collecting hi ha ht]
    exact ⟨sameBlock_collect o.names { t with seq := o.seqAfter t }, nofun,
      fun _ => collect_next o.names (s := { t with seq := o.seqAfter t }) (port.waiting.trans hw)⟩

/-- A line without an operation is a call of a handler, Ping's marker or the report of a result: the block is
left alone, and only a report ends the sequence (R221, R235). -/
theorem hostOp_own {o : HostOp} {s : State} (hi : o.instr s = none) :
    SameBlock s (hostOp o s) ∧ (hostOp o s).params = s.params ∧
    (s.waiting = false → (hostOp o s).waiting = false) ∧
    ((∀ k, o ≠ .report k) → (hostOp o s).plan = s.plan ∧ (hostOp o s).results = s.results) ∧
    (∀ k, o = .report k → (hostOp o s).plan = [] ∧ ∃ r, (hostOp o s).results = s.results ++ [r]) := by
  cases o
  case call | pong =>
    exact ⟨⟨rfl, rfl, rfl, rfl, rfl, rfl, rfl, rfl, rfl, rfl, rfl⟩, rfl, id, fun _ => ⟨rfl, rfl⟩, nofun⟩
  case report k =>
    exact ⟨⟨rfl, rfl, rfl, rfl, rfl, rfl, rfl, rfl, rfl, rfl, rfl⟩, rfl, fun _ => rfl,
      fun h => absurd rfl (h k), fun _ _ => ⟨rfl, _, rfl⟩⟩
  all_goals cases hi

/-- Settles O54: the step does the line (`step_continues`), which issues its operation (`hostOp_issues`) or is
the host's own (`hostOp_own`). -/
theorem hostLineIssuesPortOperation : Obligations.HostLineIssuesPortOperation := by
  intro o rest s hs
  have hw : s.advance.waiting = false := by
    obtain ⟨-, hwait, -, -⟩ := hs
    rw [advance_waiting, hwait]
  refine ⟨_, step_continues hs, ?_⟩
  rw [← instr_advance o rest s, ← advance_results s]
  refine ⟨fun i hi => hostOp_issues hi hw, fun hi => ?_⟩
  obtain ⟨hblock, -, hwaits, hgoes, hends⟩ := hostOp_own hi
  exact ⟨hblock, hwaits hw, hgoes, hends⟩

/-! ### The parameters and the time -/

/-- `t` has the parameters of `s` and stands no earlier (R7, R29, R264). -/
structure Later (s t : State) : Prop where
  params : t.params = s.params
  now_le : s.now ≤ t.now

theorem Later.refl (s : State) : Later s s := ⟨rfl, le_rfl⟩

theorem Later.trans {s t u : State} (h₁ : Later s t) (h₂ : Later t u) : Later s u :=
  ⟨h₂.params.trans h₁.params, h₁.now_le.trans h₂.now_le⟩

theorem PortStep.later {s t : State} (h : PortStep s t) : Later s t := ⟨h.params, h.now_le⟩

theorem SameBlock.now_eq {s t : State} (h : SameBlock s t) : t.now = s.now := by
  obtain ⟨-, -, -, -, -, -, -, -, -, -, hnow⟩ := h
  exact hnow

theorem SameBlock.later {s t : State} (h : SameBlock s t) (hp : t.params = s.params) : Later s t :=
  ⟨hp, h.now_eq.ge⟩

theorem later_advance (s : State) : Later s s.advance := by
  rcases advance_cases s with ⟨-, h⟩ | ⟨k, ts, -, h⟩
  · rw [h]; exact ⟨rfl, le_rfl⟩
  · rw [h]; exact ⟨rfl, Nat.le_add_right _ _⟩

theorem later_hardReset (s : State) : Later s s.hardReset := ⟨rfl, le_rfl⟩

/-- Every line of a host sequence: its operation, and what the host does with the response. -/
theorem later_hostOp (o : HostOp) (s : State) : Later s (hostOp o s) := by
  cases hi : o.instr s with
  | none =>
    obtain ⟨hblock, hparams, -, -, -⟩ := hostOp_own hi
    exact hblock.later hparams
  | some i =>
    obtain ⟨t, ht, port⟩ := exec_port s (instr_isPort hi)
    cases ha : o.awaits with
    | some r =>
      rw [hostOp_awaiting hi ha ht]
      exact port.later.trans ((sameBlock_await r t).later rfl)
    | none =>
      have counted : Later t { t with seq := o.seqAfter t } := ⟨rfl, le_rfl⟩
      rw [hostOp_collecting hi ha ht]
      exact port.later.trans (counted.trans ((sameBlock_collect ..).later (collect_params ..)))

theorem later_planStep (s : State) : Later s (planStep s) := by
  unfold planStep
  split
  · exact .refl s
  · rename_i o rest _
    have begun : Later s { s with plan := rest } := ⟨rfl, le_rfl⟩
    exact begun.trans (later_hostOp o _)

theorem later_startPlan (ops : List HostOp) (s : State) : Later s (startPlan ops s) := by
  have planned : Later s { s with plan := ops } := ⟨rfl, le_rfl⟩
  exact planned.trans (later_planStep _)

theorem later_receive (serve : List HostOp) (len : Fin 9) (data : Payload) (s : State) :
    Later s (receive serve len data s) := by
  have inHand : Later s { s with
    waiting := false, vars := { s.vars with f := { id := s.response.frame.id, len := len, data := data } } } :=
    ⟨rfl, le_rfl⟩
  rw [receive_plan rfl]
  exact inHand.trans (later_startPlan _ _)

/-- A wire command is the taking up of its envelope, by a plan of the command's own (R235). -/
theorem exec_wire {i : Instr} {c : CmdId} {e : Envelope} (s : State) (h : envelope? i = some (c, e)) :
    ∃ serve, exec i s = .next (receive serve e.len (envelopeData (cmdCode c) e) s) := by
  cases i <;> cases h <;> exact ⟨_, rfl⟩

/-- Every instruction answers a next state with the same parameters, no earlier. -/
theorem exec_later (i : Instr) (s : State) : ∃ t, exec i s = .next t ∧ Later s t := by
  cases h : envelope? i with
  | none =>
    obtain ⟨t, ht, port⟩ := exec_port s h
    exact ⟨t, ht, port.later⟩
  | some p =>
    obtain ⟨serve, hs⟩ := exec_wire s (c := p.1) (e := p.2) h
    exact ⟨_, hs, later_receive ..⟩

theorem later_reject (c : Code) (s : State) : Later s (reject c s) := by
  cases c with
  | word cw => exact ⟨rfl, le_rfl⟩
  | payload len data => exact later_receive dropPlan len data s

/-! ### What a step finds to do -/

/-- Every state that the host has already moved to in what a step finds to do has the property. -/
def Next.All (P : State → Prop) : Next → Prop
  | .run _ t => P t
  | .host t => P t
  | .reset | .continue _ | .idle => True

theorem Next.All.mono {P Q : State → Prop} {n : Next} (h : n.All P) (hPQ : ∀ t, P t → Q t) : n.All Q := by
  cases n
  case run c t => exact hPQ t h
  case host t => exact hPQ t h
  all_goals trivial

theorem later_hostAct (a : HostAct) (s : State) : (hostAct a s).All (Later s) := by
  unfold hostAct
  split
  · exact Later.refl s
  all_goals exact later_startPlan _ s

theorem later_hostNoFrame (s : State) : Later s (hostNoFrame s) := by
  unfold hostNoFrame
  split <;> exact ⟨rfl, le_rfl⟩

theorem later_hostResponse (s : State) : (hostResponse s).All (Later s) := by
  have stopped : Later s s.stopWaiting := ⟨rfl, le_rfl⟩
  have read : Later s { s with waiting := false } := ⟨rfl, le_rfl⟩
  have failed : Later s (s.finish (.failed s.response.status)) := ⟨rfl, le_rfl⟩
  unfold hostResponse
  split_ifs
  · exact failed
  · exact stopped
  · exact read.trans (later_startPlan _ _)
  · exact stopped
  · exact Later.refl s
  · exact later_hostNoFrame s

theorem later_fetch (s : State) : (fetch s).All (Later s) := by
  unfold fetch
  split
  · trivial
  split
  · trivial
  split
  · exact later_hostResponse s
  split
  · exact later_planStep s
  split
  · trivial
  · rename_i a rest _
    have taken : Later s { s with script := rest } := ⟨rfl, le_rfl⟩
    exact (later_hostAct a _).mono fun t => taken.trans

/-- Every step answers a next state with the same parameters, no earlier: the environment moves first, then
the block or the host does. -/
theorem step_later (s : State) : ∃ t, step s = .next t ∧ Later s t := by
  suffices ∃ t, step s = .next t ∧ Later s.advance t by
    obtain ⟨t, ht, hl⟩ := this
    exact ⟨t, ht, (later_advance s).trans hl⟩
  have hfetch := later_fetch s.advance
  unfold step
  cases hf : fetch s.advance
  case reset => exact ⟨_, rfl, later_hardReset _⟩
  case idle => exact ⟨_, rfl, .refl _⟩
  case host t =>
    rw [hf] at hfetch
    exact ⟨t, rfl, hfetch⟩
  case run c t =>
    rw [hf] at hfetch
    cases hd : decode c with
    | error e => exact ⟨_, by simp only [hd], Later.trans hfetch (later_reject c t)⟩
    | ok i =>
      obtain ⟨u, hu, hl⟩ := exec_later i t
      exact ⟨u, by simp only [hd, hu], Later.trans hfetch hl⟩
  next k => exact ⟨_, rfl, (matcherStep_iterate k _).portStep.later⟩

/-- Settles O34, by what each kind of step does to the parameters and the time. -/
theorem parametersFixedAndTimeMonotone : Obligations.ParametersFixedAndTimeMonotone := by
  intro s t h
  obtain ⟨u, hu, later⟩ := step_later s
  obtain rfl : t = u := Host.Outcome.next.inj (h.symm.trans hu)
  exact ⟨later.params, later.now_le⟩

end Sys2Proof.Machine
end

/-! SUPPORT. What each operation does to the state's five items (R20): which parts it leaves alone (R33), how it
moves the cursor (R22), the one response that it ends with (R28), and the invariant of R32, which every step
keeps. -/

namespace Sys2Proof.Machine

/-! ### Reset and fetching -/

/-- Settles O35, by the reset values as State.lean gives them. -/
theorem resetValues : Obligations.ResetValues := ⟨rfl, rfl, fun _ => rfl, rfl⟩

/-- A step of an idle block whose host is idle finds the host's next act to do (R27). -/
theorem fetch_acts {a : HostAct} {rest : List HostAct} {s : State} (h : Acts a rest s) :
    fetch s.advance = hostAct a { s.advance with script := rest } := by
  obtain ⟨hop, hwait, hplan, hscript, hreset⟩ := h
  simp [fetch, hop, hwait, hplan, hscript, hreset]

/-- Settles O43: the act is the word, which the step decodes and runs. -/
theorem stepRunsIssuedWord : Obligations.StepRunsIssuedWord := by
  intro cw rest i s hs hd
  unfold step
  rw [fetch_acts hs]
  simp only [hostAct, hd]

/-- A step of a busy block is the next iteration of the operation in progress (R28, R161). -/
theorem step_busy {k : MatcherOp} {s : State} (hop : s.op = some k) (hr : s.advance.link.hardReset = false) :
    step s = .next (iterate k s.advance) := by
  simp [step, fetch, hop, hr]

/-- Settles O33: the step is an iteration (`step_busy`), which is the matcher's alone (`matcherStep_iterate`). -/
theorem busyBlockAcceptsNoCommand : Obligations.BusyBlockAcceptsNoCommand := by
  intro k s t hop hr ht
  obtain rfl : t = iterate k s.advance := Host.Outcome.next.inj (ht.symm.trans (step_busy hop hr))
  have frame : MatcherFrame s.advance (iterate k s.advance) := (matcherStep_iterate k s.advance).frame
  unfold MatcherFrame at frame
  refine ⟨rfl, ?_⟩
  rw [frame]
  simp

/-! ### The codec's part of the state and the matcher's (R33) -/

/-- Settles O28, by the frame of each operation. -/
theorem codecAndMatcherStateAreDisjoint : Obligations.CodecAndMatcherStateAreDisjoint := by
  intro s t
  refine ⟨?bare, ?value, ?pair, ?putBuf, ?matcher, fun k _ => (matcherStep_iterate k s).frame⟩
  case bare =>
    intro i hi ht
    simp only [List.mem_cons, List.not_mem_nil, or_false] at hi
    rcases hi with rfl | rfl | rfl | rfl | rfl | rfl | rfl
    all_goals cases ht; exact codecFrame_respond ..
  case value =>
    rintro v (ht | ht | ht | ht | ht | ht) <;> cases ht
    iterate 4 exact codecFrame_appendOp ..
    all_goals exact codecFrame_respond ..
  case pair =>
    rintro a b (ht | ht)
    all_goals cases ht; exact codecFrame_respond ..
  case putBuf =>
    intro len data ht
    cases ht
    exact codecFrame_putBufOp ..
  case matcher =>
    rintro id mask time (ht | ht | ht | ht | ht) <;> cases ht
    · exact (matcherStep_tryTakeOp ..).frame
    · exact (matcherStep_startReadM ..).frame
    · exact (matcherStep_startReadMT ..).frame
    · exact (matcherStep_startAvailM ..).frame
    · exact (matcherStep_startMReset _).frame

/-! ### The cursor (R22) -/

/-- The cursor is no lower than it was, and not above 8 (R22, R285). -/
def CursorRises (s t : State) : Prop := s.cur.toNat ≤ t.cur.toNat ∧ t.cur.toNat ≤ 8

theorem cursorRises_of_eq {s t : State} (hc : s.cur.toNat ≤ 8) (h : t.cur = s.cur) : CursorRises s t := by
  unfold CursorRises
  rw [h]
  exact ⟨le_rfl, hc⟩

theorem MatcherStep.cur {s t : State} (h : MatcherStep s t) : t.cur = s.cur := by
  have frame : MatcherFrame s t := h.frame
  unfold MatcherFrame at frame
  rw [frame]

/-- A cursor that the codec sets to a position of the buffer, or to its end, stands there. -/
theorem cursor_toNat {n : Nat} (h : n ≤ bufBytes) : (BitVec.ofNat 4 n).toNat = n := by
  simp only [bufBytes] at h
  simp only [BitVec.toNat_ofNat]
  omega

theorem cursorRises_appendOp (n : Nat) (v : Payload) {s : State} (hc : s.cur.toNat ≤ 8) :
    CursorRises s (appendOp n v s) := by
  rcases appendOp_cases n v s with ⟨-, h⟩ | ⟨hfit, h⟩
  · rw [h]; exact cursorRises_of_eq hc rfl
  · rw [h]
    simp only [CursorRises, respond_cur, cursor_toNat hfit]
    exact ⟨Nat.le_add_right _ _, hfit⟩

/-- A read's cursor stops at the end of the buffer (R126). -/
theorem cursorRises_readOp (n : Nat) (res : Payload → Word32) {s : State} (hc : s.cur.toNat ≤ 8) :
    CursorRises s (readOp n res s) := by
  simp only [CursorRises, readOp, respond_cur, cursor_toNat (Nat.min_le_right _ _)]
  exact ⟨le_min (Nat.le_add_right _ _) hc, Nat.min_le_right _ _⟩

theorem cur_putBufOp (n : Nat) (v : Payload) (s : State) : (putBufOp n v s).cur = s.cur := by
  rcases putBufOp_cases n v s with ⟨-, h⟩ | ⟨-, h⟩
  all_goals rw [h]; rfl

theorem cur_sendOp (id : Ident) (n : Nat) (s : State) : (sendOp id n s).cur = s.cur := by
  rcases sendOp_cases id n s with ⟨-, h⟩ | ⟨-, -, h⟩ | ⟨-, -, h⟩
  all_goals rw [h]; rfl

/-- Settles O8: the appends and the typed reads move the cursor on, and the other operations leave it where it
is. -/
theorem onlyClearLowersCursor : Obligations.OnlyClearLowersCursor := by
  intro i s t hport hclear hc ht
  change CursorRises s t
  cases i
  case clear => exact absurd rfl hclear
  case addU8 | addU16 | addBool | addFloat => cases ht; exact cursorRises_appendOp _ _ hc
  case getU8 | getU16 | getBool | getFloat => cases ht; exact cursorRises_readOp _ _ hc
  case getBuf | getLen | pack | unpack | packNib | unpackNib => cases ht; exact cursorRises_of_eq hc rfl
  case putBuf => cases ht; exact cursorRises_of_eq hc (cur_putBufOp ..)
  case tryTake => cases ht; exact cursorRises_of_eq hc (matcherStep_tryTakeOp ..).cur
  case readM => cases ht; exact cursorRises_of_eq hc (matcherStep_startReadM ..).cur
  case readMT => cases ht; exact cursorRises_of_eq hc (matcherStep_startReadMT ..).cur
  case availM => cases ht; exact cursorRises_of_eq hc (matcherStep_startAvailM ..).cur
  case mReset => cases ht; exact cursorRises_of_eq hc (matcherStep_startMReset _).cur
  case sendF => cases ht; exact cursorRises_of_eq hc (cur_sendOp ..)
  all_goals cases hport

/-! ### The two parts of the invariant -/

/-- The part of the invariant that holds of the block whether an operation is in progress or not (R32). -/
structure State.Sound (s : State) : Prop where
  buffer : s.buf.wf = true
  cursor : s.cur.toNat ≤ bufBytes
  queueCanonical : ∀ f ∈ s.pq, f.canonical = true
  queueBounded : ∀ d, s.params.pqDepth = some d → s.pq.length ≤ d
  sentCanonical : ∀ f ∈ s.sent, f.canonical = true
  errorsBare : ∀ r ∈ s.rsp, r.status ≠ .ok → r = Response.error r.status

/-- What the queue satisfies while `k` is in progress: nothing that a read would return (R155(f)), nothing at all
under `MRESET` (R157). -/
def State.OpInv (s : State) : MatcherOp → Prop
  | .readM | .readMT => anyMatch s.opId s.opMask s.pq = false
  | .availM => True
  | .mReset => s.pq = []

theorem State.Inv.sound {s : State} (h : s.Inv) : s.Sound := { h with }

theorem State.Inv.opInv {s : State} {k : MatcherOp} (h : s.Inv) (hop : s.op = some k) : s.OpInv k := by
  cases k with
  | readM => exact h.unmatched (.inl hop)
  | readMT => exact h.unmatched (.inr hop)
  | availM => trivial
  | mReset => exact h.flushing hop

/-- The invariant of a busy block. -/
theorem State.Sound.inv_busy {s : State} {k : MatcherOp} (h : s.Sound) (hop : s.op = some k) (hk : s.OpInv k) :
    s.Inv where
  __ := h
  unmatched := by
    rintro (hr | hr) <;> cases hop.symm.trans hr <;> exact hk
  flushing := by
    intro hm
    cases hop.symm.trans hm
    exact hk
  awaited _ := .inl (by simp [hop])

/-- The invariant of an idle block that has answered. -/
theorem State.Sound.inv_idle {s : State} (h : s.Sound) (hop : s.op = none) (hrsp : s.rsp ≠ []) : s.Inv where
  __ := h
  unmatched := by simp [hop]
  flushing := by simp [hop]
  awaited _ := .inr hrsp

/-- Settles O29: an empty buffer, queue and response port, and no operation in progress. -/
theorem resetSatisfiesInvariant : Obligations.ResetSatisfiesInvariant where
  buffer := rfl
  cursor := Nat.zero_le _
  queueCanonical := nofun
  queueBounded _ _ := Nat.zero_le _
  unmatched := nofun
  flushing := nofun
  awaited := nofun
  sentCanonical := nofun
  errorsBare := nofun

/-! ### What keeps the block sound -/

/-- A response is added that is bare if it is an error (R88, R255). -/
theorem State.Sound.respond {r : Response} {s : State} (h : s.Sound)
    (hr : r.status ≠ .ok → r = Response.error r.status) : (respond r s).Sound where
  __ := h
  errorsBare := List.forall_mem_cons.mpr ⟨hr, h.errorsBare⟩

/-- Frames leave the queue (R151, R157). -/
theorem State.Sound.dequeue {s : State} {q : List Frame} (h : s.Sound) (hq : q.Sublist s.pq) :
    ({ s with pq := q } : State).Sound where
  __ := h
  queueCanonical f hf := h.queueCanonical f (hq.subset hf)
  queueBounded d hd := hq.length_le.trans (h.queueBounded d hd)

theorem takeFirst_sublist {id mask : Ident} {q q' : List Frame} {f : Frame}
    (h : takeFirst id mask q = some (f, q')) : q'.Sublist q := by
  obtain ⟨l₁, l₂, rfl, rfl, -, -⟩ := takeFirst_eq_some h
  exact (List.sublist_cons_self f l₂).append_left l₁

/-- A queue that is not full is shorter than its capacity (R151). -/
theorem length_lt_of_not_full {s : State} {d : Nat} (h : s.queueFull = false) (hd : s.params.pqDepth = some d) :
    s.pq.length < d := by
  simpa [State.queueFull, hd] using h

/-- A frame taken in joins a queue that is not full (R151, R171). -/
theorem State.Sound.enqueue {s : State} (f : Frame) (h : s.Sound) (hq : s.queueFull = false) :
    (s.enqueue f.canon).Sound where
  __ := h
  queueCanonical := List.forall_mem_append.mpr ⟨h.queueCanonical, by simp⟩
  queueBounded d hd := by
    have room : s.pq.length < d := length_lt_of_not_full hq hd
    simpa using room

/-- Bytes are written inside the buffer (R52). -/
theorem State.Sound.writeN {s : State} {a n : Nat} {v : Payload} (h : s.Sound) (hfit : a + n ≤ bufBytes) :
    ({ s with buf := Memory.writeN s.buf a n v } : State).Sound where
  __ := h
  buffer := writeN_wf hfit h.buffer

/-- The cursor is set to a position of the buffer, or to its end (R22). -/
theorem State.Sound.setCursor {s : State} {n : Nat} (h : s.Sound) (hn : n ≤ bufBytes) :
    ({ s with cur := BitVec.ofNat 4 n } : State).Sound where
  __ := h
  cursor := (cursor_toNat hn).le.trans hn

/-- A frame is handed over in canonical form (R174). -/
theorem State.Sound.send {s : State} (f : Frame) (h : s.Sound) :
    ({ s with sent := s.sent ++ [f.canon] } : State).Sound where
  __ := h
  sentCanonical := List.forall_mem_append.mpr ⟨h.sentCanonical, by simp⟩

/-! ### An operation that ends -/

/-- An operation ends: the block is idle, exactly one response was given, and the block is sound still (R28). -/
structure Ends (s t : State) : Prop where
  idle : t.op = none
  responds : ∃ r, t.rsp = r :: s.rsp
  sound : s.Sound → t.Sound

/-- The response is given from a state `u` that the operation has made of `s`. -/
theorem ends_respond {r : Response} {s u : State} (hr : r.status = .ok) (hrsp : u.rsp = s.rsp)
    (hu : s.Sound → u.Sound) : Ends s (respond r u) where
  idle := rfl
  responds := ⟨r, by rw [respond_rsp, hrsp]⟩
  sound h := (hu h).respond (absurd hr)

theorem ends_raise {e : Status} {s u : State} (hrsp : u.rsp = s.rsp) (hu : s.Sound → u.Sound) :
    Ends s (raise e u) where
  idle := rfl
  responds := ⟨Response.error e, by rw [raise_rsp, hrsp]⟩
  sound h := (hu h).respond fun _ => rfl

theorem Ends.rsp_ne_nil {s t : State} (h : Ends s t) : t.rsp ≠ [] := by
  obtain ⟨r, hr⟩ := h.responds
  simp [hr]

theorem Ends.inv {s t : State} (h : Ends s t) (hs : s.Sound) : t.Inv := (h.sound hs).inv_idle h.idle h.rsp_ne_nil

theorem ends_clearOp (s : State) : Ends s (clearOp s) :=
  ends_respond rfl rfl fun h => { h with buffer := rfl, cursor := Nat.zero_le _ }

theorem ends_appendOp (n : Nat) (v : Payload) (s : State) : Ends s (appendOp n v s) := by
  rcases appendOp_cases n v s with ⟨-, e⟩ | ⟨hfit, e⟩
  · rw [e]; exact ends_raise rfl id
  · rw [e]; exact ends_respond rfl rfl fun h => (h.writeN hfit).setCursor hfit

theorem ends_readOp (n : Nat) (res : Payload → Word32) (s : State) : Ends s (readOp n res s) :=
  ends_respond rfl rfl fun h => h.setCursor (Nat.min_le_right _ _)

theorem ends_putBufOp (n : Nat) (v : Payload) (s : State) : Ends s (putBufOp n v s) := by
  rcases putBufOp_cases n v s with ⟨-, e⟩ | ⟨hfit, e⟩
  · rw [e]; exact ends_raise rfl id
  · rw [e]; exact ends_respond rfl rfl fun h => h.writeN (by rwa [Nat.zero_add])

theorem ends_sendOp (id : Ident) (n : Nat) (s : State) : Ends s (sendOp id n s) := by
  rcases sendOp_cases id n s with ⟨-, e⟩ | ⟨-, -, e⟩ | ⟨-, -, e⟩
  · rw [e]; exact ends_raise rfl fun h => h
  · rw [e]; exact ends_raise rfl fun h => h
  · rw [e]; exact ends_respond rfl rfl fun h => h.send _

theorem ends_found {id mask : Ident} {f : Frame} {q : List Frame} {s u : State}
    (ht : takeFirst id mask u.pq = some (f, q)) (hrsp : u.rsp = s.rsp) (hu : s.Sound → u.Sound) :
    Ends s (respondFound f { u with pq := q }) :=
  ends_respond rfl hrsp fun h => (hu h).dequeue (takeFirst_sublist ht)

theorem ends_tryTakeOp (id mask : Ident) (s : State) : Ends s (tryTakeOp id mask s) := by
  rcases tryTakeOp_cases id mask s with ⟨f, q, ht, e⟩ | ⟨-, e⟩
  · rw [e]; exact ends_found ht rfl fun h => h
  · rw [e]; exact ends_respond rfl rfl fun h => h

/-! ### An iteration of an operation in progress -/

/-- `k` is in progress still, with no response, the block sound, and the queue as `k` keeps it (R28, R161). -/
structure Stays (k : MatcherOp) (s t : State) : Prop where
  op : t.op = s.op
  rsp : t.rsp = s.rsp
  sound : s.Sound → t.Sound
  opInv : s.OpInv k → t.OpInv k

/-- Everything an iteration of `k` can do to the block: end it with one response, or go on with none. -/
def Progress (k : MatcherOp) (s t : State) : Prop := Ends s t ∨ Stays k s t

theorem Stays.then_progress {k : MatcherOp} {s t u : State} (h : Stays k s t) (h' : Progress k t u) :
    Progress k s u := by
  rcases h' with ended | stayed
  · exact .inl ⟨ended.idle, h.rsp ▸ ended.responds, ended.sound ∘ h.sound⟩
  · exact .inr ⟨stayed.op.trans h.op, stayed.rsp.trans h.rsp, stayed.sound ∘ h.sound, stayed.opInv ∘ h.opInv⟩

/-- The frame at the head of the backlog is the response. -/
theorem ends_received (f : Frame) (q : List Frame) (s : State) : Ends s (respondFound f { s with tq := q }) :=
  ends_respond rfl rfl fun h => { h with }

/-- A read queues the frame at the head of the backlog when it does not match, and `AVAILM` queues any
(R153, R156). -/
theorem stays_queued {k : MatcherOp} {s : State} {f : Frame} (q : List Frame) (hk : k ≠ .mReset)
    (hq : s.queueFull = false) (hf : k ≠ .availM → f.isMatch s.opId s.opMask = false) :
    Stays k s (State.enqueue f.canon { s with tq := q }) where
  op := rfl
  rsp := rfl
  sound h := State.Sound.enqueue f (s := { s with tq := q }) { h with } hq
  opInv h := by
    cases k with
    | readM | readMT => simpa [State.OpInv, anyMatch, hf] using h
    | availM => trivial
    | mReset => exact absurd rfl hk

theorem progress_iterReadM (s : State) : Progress .readM s (iterReadM s) := by
  rcases iterReadM_cases s with ⟨-, e⟩ | ⟨-, -, e⟩ | ⟨-, -, -, e⟩ | ⟨f, q, -, -, -, e⟩ | ⟨f, q, -, hq, hf, e⟩
  · rw [e]; exact .inl (ends_raise rfl id)
  · rw [e]; exact .inl (ends_raise rfl id)
  · rw [e]; exact .inr ⟨rfl, rfl, id, id⟩
  · rw [e]; exact .inl (ends_received ..)
  · rw [e]; exact .inr (stays_queued q nofun hq fun _ => hf)

theorem progress_deadlineTest (s : State) : Progress .readMT s (deadlineTest s) := by
  rcases deadlineTest_cases s with ⟨-, e⟩ | ⟨-, e⟩
  · rw [e]; exact .inl (ends_respond rfl rfl fun h => { h with })
  · rw [e]; exact .inr ⟨rfl, rfl, fun h => { h with }, id⟩

theorem progress_iterReadMT (s : State) : Progress .readMT s (iterReadMT s) := by
  rcases iterReadMT_cases s with ⟨f, q, ht, e⟩ |
    ⟨-, ⟨-, e⟩ | ⟨-, -, e⟩ | ⟨-, -, e⟩ | ⟨-, -, -, e⟩ | ⟨f, q, -, -, -, e⟩ | ⟨f, q, -, hq, hf, e⟩⟩
  · rw [e]; exact .inl (ends_found ht rfl id)
  · rw [e]; exact .inl (ends_raise rfl id)
  · rw [e]; exact progress_deadlineTest s
  · rw [e]; exact .inl (ends_raise rfl id)
  · rw [e]; exact .inl (ends_raise rfl id)
  · rw [e]; exact .inl (ends_received ..)
  · rw [e]; exact (stays_queued (k := .readMT) q nofun hq fun _ => hf).then_progress (progress_deadlineTest _)

theorem progress_iterAvailM (s : State) : Progress .availM s (iterAvailM s) := by
  rcases iterAvailM_cases s with ⟨-, e⟩ | ⟨-, -, e⟩ | ⟨-, -, -, e⟩ | ⟨-, e⟩ | ⟨f, q, -, hq, e⟩
  · rw [e]; exact .inl (ends_raise rfl id)
  · rw [e]; exact .inl (ends_raise rfl id)
  · rw [e]; exact .inl (ends_raise rfl id)
  · rw [e]; exact .inl (ends_respond rfl rfl id)
  · rw [e]; exact .inr (stays_queued q nofun hq (absurd rfl))

theorem progress_iterMReset (s : State) : Progress .mReset s (iterMReset s) := by
  rcases iterMReset_cases s with e | ⟨-, -, e⟩ | ⟨-, -, e⟩ | ⟨-, -, -, e⟩ | ⟨f, q, -, -, -, -, e⟩
  · rw [e]; exact .inl (ends_raise rfl id)
  · rw [e]; exact .inl (ends_raise rfl fun h => { h with })
  · rw [e]; exact .inl (ends_respond rfl rfl fun h => { h with })
  · rw [e]; exact .inl (ends_respond rfl rfl id)
  · rw [e]; exact .inr ⟨rfl, rfl, fun h => { h with }, id⟩

theorem progress_iterate (k : MatcherOp) (s : State) : Progress k s (iterate k s) := by
  cases k with
  | readM => exact progress_iterReadM s
  | readMT => exact progress_iterReadMT s
  | availM => exact progress_iterAvailM s
  | mReset => exact progress_iterMReset s

/-! ### An operation as it is accepted -/

/-- `k` has been accepted: it is in progress with no response, the block sound and the queue as `k` keeps it. -/
structure Begins (k : MatcherOp) (s t : State) : Prop where
  op : t.op = some k
  rsp : t.rsp = s.rsp
  sound : s.Sound → t.Sound
  opInv : t.OpInv k

/-- Everything a port operation can do to the block in the step that accepts it: end with one response, or stay
in progress with none (R28). -/
def Accepted (s t : State) : Prop := Ends s t ∨ ∃ k, Begins k s t

/-- The operation runs its first iteration at once (R161). -/
theorem Begins.then_progress {k : MatcherOp} {s t u : State} (h : Begins k s t) (h' : Progress k t u) :
    Accepted s u := by
  rcases h' with ended | stayed
  · exact .inl ⟨ended.idle, h.rsp ▸ ended.responds, ended.sound ∘ h.sound⟩
  · exact .inr ⟨k, stayed.op.trans h.op, stayed.rsp.trans h.rsp, stayed.sound ∘ h.sound, stayed.opInv h.opInv⟩

theorem accepted_startReadM (id mask : Ident) (s : State) : Accepted s (startReadM id mask s) := by
  unfold startReadM
  cases ht : takeFirst id mask s.pq with
  | some p => exact .inl (ends_found (u := accept .readM id mask s) ht rfl fun h => { h with })
  | none =>
    have begun : Begins .readM s (accept .readM id mask s) :=
      ⟨rfl, rfl, fun h => { h with }, takeFirst_eq_none.mp ht⟩
    exact begun.then_progress (progress_iterReadM _)

/-- `READMT` searches the queue inside its first iteration, and is in progress only when nothing there
matches (R154). -/
theorem accepted_startReadMT (t : Word32) (id mask : Ident) (s : State) :
    Accepted s (startReadMT t id mask s) := by
  unfold startReadMT
  cases ht : takeFirst id mask s.pq with
  | some p =>
    simp only [iterReadMT, accept_opId, accept_opMask, accept_pq, ht]
    exact .inl (ends_found (u := { accept .readMT id mask s with dl := s.now + t.toNat }) ht rfl
      fun h => { h with })
  | none =>
    have begun : Begins .readMT s { accept .readMT id mask s with dl := s.now + t.toNat } :=
      ⟨rfl, rfl, fun h => { h with }, takeFirst_eq_none.mp ht⟩
    exact begun.then_progress (progress_iterReadMT _)

theorem accepted_startAvailM (id mask : Ident) (s : State) : Accepted s (startAvailM id mask s) := by
  have begun : Begins .availM s (accept .availM id mask s) := ⟨rfl, rfl, fun h => { h with }, trivial⟩
  unfold startAvailM
  split
  · exact .inl (ends_respond rfl rfl begun.sound)
  · exact begun.then_progress (progress_iterAvailM _)

theorem accepted_startMReset (s : State) : Accepted s (startMReset s) := by
  have begun : Begins .mReset s { s with op := some .mReset, pq := [] } :=
    ⟨rfl, rfl, fun h => { h.dequeue (List.nil_sublist _) with }, rfl⟩
  exact begun.then_progress (progress_iterMReset _)

/-- Every port operation ends in the step that accepts it or stays in progress. -/
theorem exec_accepted {i : Instr} (s : State) (h : envelope? i = none) :
    ∃ t, exec i s = .next t ∧ Accepted s t := by
  cases i
  case clear => exact ⟨_, rfl, .inl (ends_clearOp s)⟩
  case addU8 | addU16 | addBool | addFloat => exact ⟨_, rfl, .inl (ends_appendOp ..)⟩
  case getU8 | getU16 | getBool | getFloat => exact ⟨_, rfl, .inl (ends_readOp ..)⟩
  case getBuf | getLen | pack | unpack | packNib | unpackNib => exact ⟨_, rfl, .inl (ends_respond rfl rfl id)⟩
  case putBuf => exact ⟨_, rfl, .inl (ends_putBufOp ..)⟩
  case tryTake => exact ⟨_, rfl, .inl (ends_tryTakeOp ..)⟩
  case readM => exact ⟨_, rfl, accepted_startReadM ..⟩
  case readMT => exact ⟨_, rfl, accepted_startReadMT ..⟩
  case availM => exact ⟨_, rfl, accepted_startAvailM ..⟩
  case mReset => exact ⟨_, rfl, accepted_startMReset s⟩
  case sendF => exact ⟨_, rfl, .inl (ends_sendOp ..)⟩
  all_goals cases h

/-- Settles O32, by what an operation does as it is accepted (`exec_accepted`) and in every further iteration
(`progress_iterate`). -/
theorem oneResponsePerOperation : Obligations.OneResponsePerOperation := by
  refine ⟨fun i s t hport ht => ?_, fun k s hop => ?_⟩
  · obtain ⟨u, hu, accepted⟩ := exec_accepted s hport
    obtain rfl : t = u := Host.Outcome.next.inj (ht.symm.trans hu)
    rcases accepted with ended | ⟨k, begun⟩
    · exact .inl ⟨ended.idle, ended.responds⟩
    · exact .inr ⟨by simp [begun.op], begun.rsp⟩
  · rcases progress_iterate k s with ended | stayed
    · exact .inl ⟨ended.idle, ended.responds⟩
    · exact .inr ⟨stayed.op.trans hop, stayed.rsp⟩

/-! ### The invariant, through the block's moves -/

theorem Accepted.inv {s t : State} (h : Accepted s t) (hs : s.Sound) : t.Inv := by
  rcases h with ended | ⟨k, begun⟩
  · exact ended.inv hs
  · exact (begun.sound hs).inv_busy begun.op begun.opInv

/-- A host that waits now has an operation in progress or a response to read (R238). -/
theorem Accepted.awaited {s t : State} (h : Accepted s t) : t.op ≠ none ∨ t.rsp ≠ [] := by
  rcases h with ended | ⟨k, begun⟩
  · exact .inr ended.rsp_ne_nil
  · exact .inl (by simp [begun.op])

theorem inv_iterate {k : MatcherOp} {s : State} (h : s.Inv) (hop : s.op = some k) : (iterate k s).Inv := by
  rcases progress_iterate k s with ended | stayed
  · exact ended.inv h.sound
  · exact (stayed.sound h.sound).inv_busy (stayed.op.trans hop) (stayed.opInv (h.opInv hop))

theorem inv_advance {s : State} (h : s.Inv) : s.advance.Inv := by
  rw [advance_eq_withEnv]
  exact { h with }

theorem inv_hardReset {s : State} (h : s.Inv) : s.hardReset.Inv :=
  { resetSatisfiesInvariant with
    queueBounded := fun _ _ => Nat.zero_le _, awaited := nofun
    sentCanonical := h.sentCanonical, errorsBare := h.errorsBare }

/-! ### The invariant, through the host's moves -/

/-- The host's own moves leave the block alone; all the invariant asks of them is that a host that waits has
something to wait for (R238). -/
theorem State.Inv.of_sameBlock {s t : State} (h : s.Inv) (hb : SameBlock s t) (hp : t.params = s.params)
    (hw : t.waiting = true → s.op ≠ none ∨ s.rsp ≠ []) : t.Inv := by
  obtain ⟨hbuf, hcur, hpq, -, hid, hmask, hop, hrsp, -, hsent, -⟩ := hb
  constructor
  case buffer => rw [hbuf]; exact h.buffer
  case cursor => rw [hcur]; exact h.cursor
  case queueCanonical => rw [hpq]; exact h.queueCanonical
  case queueBounded => rw [hp, hpq]; exact h.queueBounded
  case unmatched => rw [hop, hid, hmask, hpq]; exact h.unmatched
  case flushing => rw [hop, hpq]; exact h.flushing
  case awaited => rw [hop, hrsp]; exact hw
  case sentCanonical => rw [hsent]; exact h.sentCanonical
  case errorsBare => rw [hrsp]; exact h.errorsBare

/-- Every line of a host sequence: its operation, and what the host does with the response. -/
theorem inv_hostOp {s : State} (o : HostOp) (h : s.Inv) : (hostOp o s).Inv := by
  cases hi : o.instr s with
  | none =>
    obtain ⟨hblock, hparams, hwaits, -, -⟩ := hostOp_own hi
    refine h.of_sameBlock hblock hparams fun hw => h.awaited ?_
    by_contra hs
    simp [hwaits (by simpa using hs)] at hw
  | some i =>
    obtain ⟨t, ht, accepted⟩ := exec_accepted s (instr_isPort hi)
    have kept : t.Inv := accepted.inv h.sound
    cases ha : o.awaits with
    | some r =>
      rw [hostOp_awaiting hi ha ht]
      exact kept.of_sameBlock (sameBlock_await r t) rfl fun _ => accepted.awaited
    | none =>
      rw [hostOp_collecting hi ha ht]
      exact kept.of_sameBlock (sameBlock_collect o.names { t with seq := o.seqAfter t })
        (collect_params o.names { t with seq := o.seqAfter t }) fun _ => accepted.awaited

theorem inv_planStep {s : State} (h : s.Inv) : (planStep s).Inv := by
  unfold planStep
  split
  · exact h
  · exact inv_hostOp _ { h with }

theorem inv_startPlan {s : State} (ops : List HostOp) (h : s.Inv) : (startPlan ops s).Inv :=
  inv_planStep { h with }

/-- The host is idle: it waits for nothing. -/
theorem inv_finish {s : State} (r : HostResult) (h : s.Inv) : (s.finish r).Inv := { h with awaited := nofun }

theorem inv_stopWaiting {s : State} (h : s.Inv) : s.stopWaiting.Inv := { h with awaited := nofun }

theorem inv_receive {s : State} (serve : List HostOp) (len : Fin 9) (data : Payload) (h : s.Inv) :
    (receive serve len data s).Inv :=
  inv_startPlan _ { h with awaited := nofun }

theorem inv_reject {s : State} (c : Code) (h : s.Inv) : (reject c s).Inv := by
  cases c with
  | word cw => exact (ends_raise rfl id).inv h.sound
  | payload len data => exact inv_receive dropPlan len data h

/-- Every instruction, accepted from a state with the invariant. -/
theorem inv_exec {i : Instr} {s t : State} (h : s.Inv) (ht : exec i s = .next t) : t.Inv := by
  cases hi : envelope? i with
  | none =>
    obtain ⟨u, hu, accepted⟩ := exec_accepted s hi
    obtain rfl : t = u := Host.Outcome.next.inj (ht.symm.trans hu)
    exact accepted.inv h.sound
  | some p =>
    obtain ⟨serve, hs⟩ := exec_wire s (c := p.1) (e := p.2) hi
    cases ht.symm.trans hs
    exact inv_receive _ _ _ h

/-- What a step finds to do in `s` is the iteration of the operation in progress (R28, R161), or starts from a
state that has the invariant. -/
def Next.Kept (s : State) : Next → Prop
  | .reset | .idle => True
  | .continue k => s.op = some k
  | .run _ t | .host t => t.Inv

theorem kept_hostAct {s s₀ : State} (a : HostAct) (h : s.Inv) : (hostAct a s).Kept s₀ := by
  unfold hostAct
  split
  · exact h
  all_goals exact inv_startPlan _ h

theorem inv_hostNoFrame {s : State} (h : s.Inv) : (hostNoFrame s).Inv := by
  unfold hostNoFrame
  split
  iterate 3 exact inv_stopWaiting h
  all_goals exact inv_finish _ h

theorem kept_hostResponse {s : State} (h : s.Inv) : (hostResponse s).Kept s := by
  unfold hostResponse
  split_ifs
  · exact inv_finish _ h
  · exact inv_stopWaiting h
  · exact inv_startPlan _ { h with awaited := nofun }
  · exact inv_stopWaiting h
  · exact h
  · exact inv_hostNoFrame h

theorem kept_fetch {s : State} (h : s.Inv) : (fetch s).Kept s := by
  unfold fetch
  split
  · trivial
  split
  · rename_i k hop
    exact hop
  split
  · exact kept_hostResponse h
  split
  · exact inv_planStep h
  split
  · trivial
  · exact kept_hostAct _ { h with }

/-- Settles O30: the environment's move keeps the invariant, and so does each of the things that a step finds
to do. -/
theorem stepKeepsInvariant : Obligations.StepKeepsInvariant := by
  intro s t hs ht
  have advanced : s.advance.Inv := inv_advance hs
  have found := kept_fetch advanced
  unfold step at ht
  cases hf : fetch s.advance
  case reset => rw [hf] at ht; cases ht; exact inv_hardReset advanced
  case idle => rw [hf] at ht; cases ht; exact advanced
  case host u => rw [hf] at ht found; cases ht; exact found
  case run c u =>
    rw [hf] at ht found
    cases hd : decode c with
    | error e => simp only [hd] at ht; cases ht; exact inv_reject c found
    | ok i => simp only [hd] at ht; exact inv_exec found ht
  next k => rw [hf] at ht found; cases ht; exact inv_iterate advanced found

end Sys2Proof.Machine

/-! SUPPORT. What an iteration of a read or of the drain does to the frames that the matcher can still return: it
keeps them all in order, or returns the earliest match and keeps the others (R60, R159, R255). -/

namespace Sys2Proof.Machine

/-! ### The filter -/

theorem isMatch_iff {f : Frame} {id mask : Ident} :
    f.isMatch id mask = true ↔ f.id &&& mask = id &&& mask := by
  simp [Frame.isMatch]

theorem anyMatch_eq_false_iff {id mask : Ident} {q : List Frame} :
    anyMatch id mask q = false ↔ NoneMatch id mask q := by
  simp [anyMatch, NoneMatch]

/-! ### The stream -/

/-- The frame at the head of the backlog stands in the stream right after the queue. -/
theorem stream_of_tq_eq_cons {s : State} {f : Frame} {q : List Frame} (ht : s.tq = f :: q) :
    s.stream = s.pq ++ f.canon :: q.map Frame.canon := by
  simp [State.stream, ht]

/-- Moving the head of the backlog to the end of the queue leaves the stream as it is (R159). -/
theorem stream_enqueue {s : State} {f : Frame} {q : List Frame} (ht : s.tq = f :: q) :
    (State.enqueue f.canon { s with tq := q }).stream = s.stream := by
  rw [stream_of_tq_eq_cons ht]
  simp [State.stream, State.enqueue]

/-! ### What an iteration may do to the stream -/

/-- Every frame is still there, in order, and no response given meanwhile carries one. -/
structure KeepsStream (s t : State) : Prop where
  stream : t.stream = s.stream
  misses : ∃ rs, t.rsp = rs ++ s.rsp ∧ ∀ r ∈ rs, r.hit = false

/-- The one response given carries the earliest match of the stream, and every other frame is still there, in
order. -/
def ReturnsEarliest (s t : State) : Prop :=
  ∃ l₁ f l₂, s.stream = l₁ ++ f :: l₂ ∧ NoneMatch s.opId s.opMask l₁ ∧
    f.id &&& s.opMask = s.opId &&& s.opMask ∧ t.stream = l₁ ++ l₂ ∧ t.rsp = Response.found f :: s.rsp

theorem KeepsStream.trans {s t u : State} (h₁ : KeepsStream s t) (h₂ : KeepsStream t u) : KeepsStream s u := by
  obtain ⟨stream₁, rs₁, hrs₁, misses₁⟩ := h₁
  obtain ⟨stream₂, rs₂, hrs₂, misses₂⟩ := h₂
  exact ⟨stream₂.trans stream₁, rs₂ ++ rs₁, by rw [hrs₂, hrs₁, List.append_assoc],
    List.forall_mem_append.mpr ⟨misses₂, misses₁⟩⟩

/-- The responses that are new after a step that keeps the stream are exactly those the step gave. -/
theorem KeepsStream.new_responses_miss {s t : State} (h : KeepsStream s t) :
    ∀ r ∈ t.rsp.take (t.rsp.length - s.rsp.length), r.hit = false := by
  obtain ⟨-, rs, hrs, misses⟩ := h
  simpa [hrs] using misses

theorem keepsStream_of_eq {s t : State} (hstream : t.stream = s.stream) (hrsp : t.rsp = s.rsp) : KeepsStream s t :=
  ⟨hstream, [], hrsp, nofun⟩

theorem keepsStream_respond {r : Response} (s : State) (hr : r.hit = false) : KeepsStream s (respond r s) :=
  ⟨rfl, [r], rfl, List.forall_mem_singleton.mpr hr⟩

/-- An error is a response without a frame, and loses none (R255). -/
theorem keepsStream_raise (e : Status) (s : State) : KeepsStream s (raise e s) :=
  keepsStream_respond s (error_hit e)

theorem keepsStream_enqueue {s : State} {f : Frame} {q : List Frame} (ht : s.tq = f :: q) :
    KeepsStream s (State.enqueue f.canon { s with tq := q }) :=
  keepsStream_of_eq (stream_enqueue ht) rfl

theorem keepsStream_deadlineTest (s : State) : KeepsStream s (deadlineTest s) := by
  have sampled : KeepsStream s { s with now := s.now + s.link.lag } := keepsStream_of_eq rfl rfl
  rcases deadlineTest_cases s with ⟨-, e⟩ | ⟨-, e⟩
  · rw [e]; exact sampled.trans (keepsStream_respond _ ok_hit)
  · rw [e]; exact sampled

/-- The first match of the queue is the earliest of the stream, since the queue stands before the backlog. -/
theorem returnsEarliest_buffered {s : State} {f : Frame} {q : List Frame}
    (ht : takeFirst s.opId s.opMask s.pq = some (f, q)) :
    ReturnsEarliest s (respondFound f { s with pq := q }) := by
  obtain ⟨l₁, l₂, hpq, rfl, hf, hl₁⟩ := takeFirst_eq_some ht
  exact ⟨l₁, f, l₂ ++ s.tq.map Frame.canon, by simp [State.stream, hpq], hl₁, isMatch_iff.mp hf,
    List.append_assoc .., rfl⟩

/-- A match at the head of the backlog is the earliest of the stream when the queue holds none. -/
theorem returnsEarliest_received {s : State} {f : Frame} {q : List Frame} (hpq : NoneMatch s.opId s.opMask s.pq)
    (ht : s.tq = f :: q) (hf : f.isMatch s.opId s.opMask = true) :
    ReturnsEarliest s (respondFound f.canon { s with tq := q }) :=
  ⟨s.pq, f.canon, q.map Frame.canon, stream_of_tq_eq_cons ht, hpq, isMatch_iff.mp hf, rfl, rfl⟩

/-! ### An iteration of a read or of the drain -/

theorem iterReadM_stream {s : State} (hpq : NoneMatch s.opId s.opMask s.pq) :
    KeepsStream s (iterReadM s) ∨ ReturnsEarliest s (iterReadM s) := by
  rcases iterReadM_cases s with ⟨-, e⟩ | ⟨-, -, e⟩ | ⟨-, -, -, e⟩ | ⟨f, q, ht, -, hf, e⟩ | ⟨f, q, ht, -, -, e⟩
  · rw [e]; exact .inl (keepsStream_raise ..)
  · rw [e]; exact .inl (keepsStream_raise ..)
  · rw [e]; exact .inl (keepsStream_of_eq rfl rfl)
  · rw [e]; exact .inr (returnsEarliest_received hpq ht hf)
  · rw [e]; exact .inl (keepsStream_enqueue ht)

/-- `READMT` searches the queue itself in every iteration, so it needs nothing of what the queue holds. -/
theorem iterReadMT_stream (s : State) : KeepsStream s (iterReadMT s) ∨ ReturnsEarliest s (iterReadMT s) := by
  rcases iterReadMT_cases s with ⟨f, q, htake, e⟩ |
    ⟨htake, ⟨-, e⟩ | ⟨-, -, e⟩ | ⟨-, -, e⟩ | ⟨-, -, -, e⟩ | ⟨f, q, ht, -, hf, e⟩ | ⟨f, q, ht, -, -, e⟩⟩
  · rw [e]; exact .inr (returnsEarliest_buffered htake)
  · rw [e]; exact .inl (keepsStream_raise ..)
  · rw [e]; exact .inl (keepsStream_deadlineTest s)
  · rw [e]; exact .inl (keepsStream_raise ..)
  · rw [e]; exact .inl (keepsStream_raise ..)
  · have hpq : NoneMatch s.opId s.opMask s.pq := anyMatch_eq_false_iff.mp (takeFirst_eq_none.mp htake)
    rw [e]; exact .inr (returnsEarliest_received hpq ht hf)
  · rw [e]; exact .inl ((keepsStream_enqueue ht).trans (keepsStream_deadlineTest _))

theorem keepsStream_iterAvailM (s : State) : KeepsStream s (iterAvailM s) := by
  rcases iterAvailM_cases s with ⟨-, e⟩ | ⟨-, -, e⟩ | ⟨-, -, -, e⟩ | ⟨-, e⟩ | ⟨f, q, ht, -, e⟩
  · rw [e]; exact keepsStream_raise ..
  · rw [e]; exact keepsStream_raise ..
  · rw [e]; exact keepsStream_raise ..
  · rw [e]; exact keepsStream_respond s (values_hit ..)
  · rw [e]; exact keepsStream_enqueue ht

/-- `MRESET` alone drops frames; while `READM` is in progress the invariant keeps matches out of the queue, where
it would not look for them (R155(f)). -/
theorem iterate_stream {k : MatcherOp} {s : State} (hk : k ≠ .mReset) (hop : s.op = some k) (hs : s.Inv) :
    KeepsStream s (iterate k s) ∨ ReturnsEarliest s (iterate k s) := by
  cases k with
  | readM => exact iterReadM_stream (anyMatch_eq_false_iff.mp (hs.opInv hop))
  | readMT => exact iterReadMT_stream s
  | availM => exact .inl (keepsStream_iterAvailM s)
  | mReset => exact absurd rfl hk

/-- Settles O25, by what an iteration of each operation does to the stream. -/
theorem readsLoseAndReorderNoFrame : Obligations.ReadsLoseAndReorderNoFrame := by
  intro k s hk hop hs
  exact (iterate_stream hk hop hs).imp_left fun kept => ⟨kept.stream, kept.new_responses_miss⟩

end Sys2Proof.Machine

/-! SUPPORT. The two decoders and the encoder: which command words and payloads are instructions, that each
instruction is decoded from its own encoding, and the fields of a response word (R83 to R93). -/

namespace Sys2Proof.Machine

/-! ### Command words -/

theorem toNat_opcField (cw : CommandWord) : (opcField cw).toNat = cw.toNat / 2 ^ 72 := by
  rw [opcField, BitVec.extractLsb'_toNat, Nat.shiftRight_eq_div_pow]
  omega

/-- The decoder has an arm for each of the 22 operation codes, and every other code is an error (R89, R92). -/
theorem decodeWord_ok_iff (cw : CommandWord) :
    (∃ i, decodeWord cw = .ok i) ↔ (opcField cw).toNat ∈ portOpcodes := by
  unfold decodeWord
  split
  case h_23 => simp_all [portOpcodes]
  all_goals
    next hopc => exact iff_of_true ⟨_, rfl⟩ (by rw [hopc]; decide)

/-- A port operation is decoded from its own word: `OPC` selects its arm, and each field of its format reads back
what the encoder put there (R87, R89). The cases are the formats N, V, P, M, B and S. -/
theorem decode_encode_port {i : Instr} (h : envelope? i = none) : decode (encode i) = .ok i := by
  cases i
  case clear | getU8 | getU16 | getBool | getFloat | getBuf | getLen | mReset =>
    simp [encode, decode, decodeWord, opcField_wordN]
  case addU8 | addU16 | addBool | addFloat | unpack | unpackNib =>
    simp [encode, decode, decodeWord, opcField_wordV, vField_wordV]
  case pack | packNib =>
    simp [encode, decode, decodeWord, opcField_wordP, aField_wordP, bField_wordP]
  case tryTake | readM | readMT | availM =>
    simp [encode, decode, decodeWord, opcField_wordM, tField_wordM, idField_wordM, maskField_wordM]
  case putBuf => simp [encode, decode, decodeWord, opcField_wordB, bufLenField_wordB, dataField_wordB]
  case sendF => simp [encode, decode, decodeWord, opcField_wordS, idField_wordS, sendLenField_wordS]
  all_goals cases h

/-! ### Payloads -/

/-- A wire command is encoded as its envelope, with its command id (R84, R91). -/
theorem encode_wire {i : Instr} {c : CmdId} {e : Envelope} (h : envelope? i = some (c, e)) :
    encode i = .payload e.len (envelopeData (cmdCode c) e) := by
  cases i <;> cases h <;> rfl

theorem wellFormed_wire {i : Instr} {c : CmdId} {e : Envelope} (h : envelope? i = some (c, e)) :
    WellFormed i = e.wellFormed c := by
  cases i <;> cases h <;> rfl

theorem toNat_cmdOf (data : Payload) : (cmdOf data).toNat = data.toNat % 256 / 16 := by
  rw [cmdOf, BitVec.extractLsb'_toNat, Nat.shiftRight_eq_div_pow]
  omega

/-- The six fields of an envelope are adjacent, so that together they are the whole payload (R84). -/
theorem envelopeData_envelopeOf (len : Fin 9) (data : Payload) :
    envelopeData (cmdOf data) (envelopeOf len data) = data := by
  have join := @BitVec.extractLsb'_append_extractLsb'_eq_extractLsb' 64
  simp only [envelopeData, envelopeOf, cmdOf]
  rw [join (by omega), join (by omega), join (by omega), join (by omega), join (by omega), slice_all]

/-- The decoder has an arm for each of the command ids 0x0 to 0x9, and every other id is an error (R91, R93). -/
theorem decodePayload_ok_iff (len : Fin 9) (data : Payload) :
    (∃ i, decodePayload len data = .ok i) ↔ (cmdOf data).toNat ≤ 9 := by
  unfold decodePayload
  split
  case h_11 =>
    simp only [reduceCtorEq, exists_false, false_iff, imp_false] at *
    omega
  all_goals
    next hcmd => exact iff_of_true ⟨_, rfl⟩ (by omega)

/-- What a payload is decoded to: the command whose id it carries, with the payload's own envelope (R91, R93). -/
theorem decode_payload_eq_ok_iff {len : Fin 9} {data : Payload} {i : Instr} :
    decode (.payload len data) = .ok i ↔
      ∃ c, cmdCode c = cmdOf data ∧ envelope? i = some (c, envelopeOf len data) := by
  rw [decode]
  constructor
  · intro h
    unfold decodePayload at h
    split at h
    case h_11 => cases h
    all_goals
      next hcmd =>
        cases h
        refine ⟨_, ?_, rfl⟩
        exact BitVec.eq_of_toNat_eq hcmd.symm
  · rintro ⟨c, hcmd, henv⟩
    rw [decodePayload, ← hcmd]
    cases i <;> cases henv <;> rfl

/-- A wire command is decoded from its own payload, whose command id and envelope read back (R84, R91). -/
theorem decode_encode_wire {i : Instr} {c : CmdId} {e : Envelope} (h : envelope? i = some (c, e)) :
    decode (encode i) = .ok i := by
  rw [encode_wire h, decode_payload_eq_ok_iff]
  exact ⟨c, (cmdOf_envelopeData _ _).symm, by rw [envelopeOf_envelopeData, h]⟩

/-! ### Decoding and encoding -/

/-- Settles O38, by the two spaces of encodings: command words and payloads. Well-formedness is not used: an
envelope keeps the bytes beyond its length too, and they read back as they stand. -/
theorem decodeOfEncodeIsTheInstruction : Obligations.DecodeOfEncodeIsTheInstruction := by
  intro i _
  cases henv : envelope? i with
  | none => exact decode_encode_port henv
  | some p => exact decode_encode_wire henv

/-- Settles O39: the codes are the decoder's arms, and an arm reads the fields of its format alone. -/
theorem commandWordDecodesByOpcode : Obligations.CommandWordDecodesByOpcode := by
  refine ⟨fun cw => ?_, ?_⟩
  · rw [← toNat_opcField]
    exact decodeWord_ok_iff cw
  · and_intros
    all_goals
      intro cw hopc
      rw [decode, decodeWord, opcField, hopc]
      rfl

/-- Settles O41: the ids are the decoder's arms (`decodePayload_ok_iff`), and a payload is the envelope read from
it, so that its command is well-formed exactly when the payload is canonical. -/
theorem payloadDecodesByCommandId : Obligations.PayloadDecodesByCommandId := by
  refine ⟨fun len data => ?_, fun len data i hi => ?_⟩
  · rw [← toNat_cmdOf]
    exact decodePayload_ok_iff len data
  · obtain ⟨c, hcmd, henv⟩ := decode_payload_eq_ok_iff.mp hi
    have hdata : envelopeData (cmdCode c) (envelopeOf len data) = data := by
      rw [hcmd, envelopeData_envelopeOf]
    rw [encode_wire henv, wellFormed_wire henv, Envelope.wellFormed, hdata, beq_iff_eq]
    exact ⟨rfl, Iff.rfl⟩

/-- Settles O42, by evaluation of the decoder. -/
theorem sampleWordsDecode : Obligations.SampleWordsDecode := ⟨rfl, rfl, rfl, rfl, rfl, rfl, rfl⟩

/-! ### The response word -/

/-- The record of the frame is the low 80 bits of a response word (R88). -/
theorem slice_word_record (r : Response) {k j : Nat} (h : k + j ≤ 80) :
    r.word.extractLsb' k j = r.frame.record.extractLsb' k j := slice_low _ _ h

theorem id_record (f : Frame) : f.record.extractLsb' 68 12 = f.id := by
  simp (disch := omega) only [Frame.record, slice_high, Nat.reduceSub, slice_all]

theorem len_record (f : Frame) : (f.record.extractLsb' 64 4).toNat = f.len.val := by
  simp (disch := omega) only [Frame.record, slice_high, slice_low, Nat.reduceSub, slice_all]
  exact Nat.mod_eq_of_lt (by omega)

theorem byte_record (f : Frame) {k : Nat} (hk : k < 8) : f.record.extractLsb' (8 * k) 8 = byteOf f.data k :=
  slice_low _ _ (by omega)

/-- Settles O40: the fields above the record are slices of the word, and the others slices of the record. -/
theorem responseWordLayout : Obligations.ResponseWordLayout := by
  refine ⟨fun r => ⟨?status, ?hit, ?zeros, ?res0, ?res1, ?id, ?len, fun k hk => ?byte⟩, rfl⟩
  case status =>
    have hcode : r.word.extractLsb' 148 4 = statusCode r.status := by
      simp (disch := omega) only [Response.word, slice_high, Nat.reduceSub, slice_all]
    rw [hcode]
    cases r.status <;> rfl
  case hit =>
    simp only [Response.word, BitVec.getLsbD_append]
    simp
  case zeros | res0 | res1 =>
    simp (disch := omega) only [Response.word, slice_high, slice_low, Nat.reduceSub, slice_all]
  case id => rw [slice_word_record r (by omega), id_record]
  case len => rw [slice_word_record r (by omega), len_record]
  case byte => rw [slice_word_record r (by omega), byte_record r.frame hk]

end Sys2Proof.Machine

/-! SUPPORT. The Command Codec (R120 to R135): every typed append is one rule and every typed read another, the
buffer is read back byte by byte, and a list of typed values that fits is read back as it was written. -/

namespace Sys2Proof.Machine

/-! ### The two rules that the typed operations follow (R121, R126) -/

/-- The low `k` bits of the operand `V` as the value to write (R90). -/
theorem lowBits_operand (v : Word32) (k : Nat) :
    (v.extractLsb' 0 k).setWidth 64 = BitVec.ofNat 64 (v.toNat % 2 ^ k) :=
  BitVec.eq_of_toNat_eq (by simp)

/-- Each typed append is the common rule, for its size and the bits of `V` that it uses (R121 to R125). -/
theorem exec_typedAppend {i : Instr} {n : Nat} {v : Payload} (s : State) (h : appendOf i = some (n, v)) :
    exec i s = .next (appendOp n v s) := by
  cases i
  case addU8 w => cases h; rw [← lowBits_operand w 8]; rfl
  case addU16 w => cases h; rw [← lowBits_operand w 16]; rfl
  case addBool w => cases h; rw [← pow_one 2, ← lowBits_operand w 1]; rfl
  case addFloat w => cases h; rw [BitVec.ofNat_toNat]; rfl
  all_goals cases h

/-- What a typed read answers in `RES0` for the value it has assembled (R127 to R130). -/
def readResult (i : Instr) (v : Payload) : Word32 :=
  if i = .getBool then (if v = 0 then 0 else 1) else v.setWidth 32

theorem readN_one (m : Memory) (a : Nat) : Memory.readN m a 1 = (Memory.readPast m a).setWidth 64 := by
  simp [Memory.readN]

/-- The byte that `GETBOOL` has read is the whole of the value it has assembled (R126, R129). -/
theorem boolResult_readN_one (m : Memory) (a : Nat) :
    boolResult (Memory.readN m a 1) = readResult .getBool (Memory.readN m a 1) := by
  have hzero : (Memory.readN m a 1).setWidth 8 = (0 : Byte) ↔ Memory.readN m a 1 = 0 := by
    rw [readN_one]
    bv_omega
  simp only [boolResult, readResult, hzero, if_true]

/-- Each typed read is the common rule, for its size and its result (R126 to R130). -/
theorem exec_typedRead {i : Instr} {n : Nat} (s : State) (h : readSize i = some n) :
    exec i s = .next (readOp n (readResult i) s) := by
  cases i
  case getU8 | getU16 | getFloat => cases h; rfl
  case getBool =>
    cases h
    have hres := boolResult_readN_one s.buf s.cur.toNat
    change Host.Outcome.next (readOp 1 boolResult s) = _
    rw [readOp, hres]
    rfl
  all_goals cases h

theorem readSize_le {i : Instr} {n : Nat} (h : readSize i = some n) : n ≤ 8 := by
  cases i
  case getU8 | getU16 | getBool | getFloat => cases h; decide
  all_goals cases h

/-! ### What the rules do to the buffer and the cursor -/

theorem appendOp_buf {n : Nat} {v : Payload} {s : State} (h : s.cur.toNat + n ≤ bufBytes) :
    (appendOp n v s).buf = s.buf.writeN s.cur.toNat n v := by
  rw [appendOp_eq h]

theorem appendOp_cur {n : Nat} {v : Payload} {s : State} (h : s.cur.toNat + n ≤ bufBytes) :
    (appendOp n v s).cur.toNat = s.cur.toNat + n := by
  rw [appendOp_eq h]
  exact cursor_toNat h

theorem readOp_cur (n : Nat) (res : Payload → Word32) (s : State) :
    (readOp n res s).cur.toNat = min (s.cur.toNat + n) bufBytes := cursor_toNat (Nat.min_le_right _ _)

theorem putBufOp_fits {n : Nat} {v : Payload} {s : State} (h : n ≤ bufBytes) :
    putBufOp n v s = respond Response.ok { s with buf := s.buf.writeN 0 n v } := if_neg h.not_gt

/-! ### The buffer byte by byte -/

/-- `GETBUF` takes the buffer out byte by byte (R132). -/
theorem byteOf_wholeBuffer (m : Memory) {k : Nat} (hk : k < 8) :
    byteOf (Memory.readN m 0 bufBytes) k = Memory.read m k := by
  rw [bufBytes, byteOf_readN le_rfl, if_pos hk, Memory.readPast, if_pos (by simpa [bufBytes] using hk), Nat.zero_add]

/-- A read depends on the bytes it reads and on no others. -/
theorem readN_congr {m m' : Memory} {a n : Nat}
    (h : ∀ k, a ≤ k → k < a + n → Memory.read m k = Memory.read m' k) : Memory.readN m a n = Memory.readN m' a n := by
  induction n generalizing a with
  | zero => rfl
  | succ n ih =>
    have first : Memory.readPast m a = Memory.readPast m' a := by
      simp only [Memory.readPast, h a le_rfl (by omega)]
    have others := ih (a := a + 1) fun k hk hn => h k (by omega) (by omega)
    simp only [Memory.readN, first, others]

/-! ### Each operation -/

/-- Settles O1: the empty buffer reads as 0x00 at every address. -/
theorem clearZeroFillsBufferAndCursor : Obligations.ClearZeroFillsBufferAndCursor := by
  obtain ⟨-, hclear, -⟩ := commandWordDecodesByOpcode
  exact ⟨hclear, fun s => ⟨clearOp s, rfl, fun _ => rfl, rfl, rfl, codecFrame_respond ..⟩⟩

/-- Settles O2: each append is the common rule (`exec_typedAppend`), which writes inside the buffer or raises. -/
theorem appendWritesValueAtCursor : Obligations.AppendWritesValueAtCursor := by
  obtain ⟨-, -, hu8, hu16, hbool, hfloat, -⟩ := commandWordDecodesByOpcode
  refine ⟨hu8, hu16, hbool, hfloat, fun i n v s hi hwf => ⟨fun hfit => ?fits, fun hover => ?beyond⟩⟩
  case fits =>
    refine ⟨appendOp n v s, exec_typedAppend s hi, fun k hk => ?_, fun a ha => ?_, appendOp_cur hfit, ?_,
      codecFrame_appendOp ..⟩
    · rw [appendOp_buf hfit, read_writeN_inside hk hfit hwf]
    · rw [appendOp_buf hfit, read_writeN_outside ha]
    · rw [appendOp_eq hfit]
  case beyond =>
    rw [exec_typedAppend s hi, appendOp, if_pos hover]
    rfl

/-- Settles O4: each read is the common rule (`exec_typedRead`), and its bytes are those of `byteOf_readN`. -/
theorem typedReadReturnsBytesFromCursor : Obligations.TypedReadReturnsBytesFromCursor := by
  obtain ⟨-, -, -, -, -, -, hu8, hu16, hbool, hfloat, -⟩ := commandWordDecodesByOpcode
  refine ⟨hu8, hu16, hbool, hfloat, fun i n s hi => ?_⟩
  refine ⟨readOp n (readResult i) s, Memory.readN s.buf s.cur.toNat n, exec_typedRead s hi, fun k => ?bytes, rfl,
    readOp_cur .., rfl, codecFrame_respond ..⟩
  case bytes =>
    rw [byteOf_readN (readSize_le hi), Memory.readPast, ite_and]
    simp only [bufBytes, Nat.lt_succ_iff]

/-- Settles O5, by the arm of `GETLEN`, which reads no part of the state. -/
theorem getLenAnswersEight : Obligations.GetLenAnswersEight := by
  obtain ⟨-, -, -, -, -, -, -, -, -, -, -, hlen, -⟩ := commandWordDecodesByOpcode
  exact ⟨hlen, fun _ => rfl⟩

/-- Settles O6, by `byteOf_wholeBuffer`. -/
theorem getBufReturnsWholeBuffer : Obligations.GetBufReturnsWholeBuffer := by
  obtain ⟨-, -, -, -, -, -, -, -, -, -, hbuf, -⟩ := commandWordDecodesByOpcode
  exact ⟨hbuf, fun s => ⟨_, rfl, rfl, rfl, fun _ hk => byteOf_wholeBuffer s.buf hk⟩⟩

/-- Settles O7: `putBufOp` writes inside the buffer or raises. -/
theorem putBufWritesFirstBytes : Obligations.PutBufWritesFirstBytes := by
  obtain ⟨-, -, -, -, -, -, -, -, -, -, -, -, hput, -⟩ := commandWordDecodesByOpcode
  refine ⟨hput, fun len data s hwf => ⟨fun hfit => ?fits, fun hover => ?beyond⟩⟩
  case fits =>
    have inside : 0 + len.toNat ≤ bufBytes := by rwa [Nat.zero_add]
    refine ⟨putBufOp len.toNat data s, rfl, fun k hk => ?_, fun a ha => ?_, cur_putBufOp .., ?_,
      codecFrame_putBufOp ..⟩
    all_goals rw [putBufOp_fits hfit]
    · simpa using read_writeN_inside hk inside hwf
    · exact read_writeN_outside (.inr (by rwa [Nat.zero_add]))
    · rfl
  case beyond =>
    change Host.Outcome.next (putBufOp len.toNat data s) = _
    rw [putBufOp, if_pos (by simp only [bufBytes]; omega)]
    rfl

/-! ### Sequences of operations -/

theorem execAll_cons {i : Instr} {is : List Instr} {s t : State} (h : exec i s = .next t) :
    execAll (i :: is) s = execAll is t := by
  rw [execAll, h]

theorem execAll_append {is js : List Instr} {s t : State} (h : execAll is s = .next t) :
    execAll (is ++ js) s = execAll js t := by
  induction is generalizing s with
  | nil => cases h; rfl
  | cons i is ih =>
    rw [List.cons_append]
    cases hi : exec i s with
    | next u =>
      rw [execAll_cons hi] at h ⊢
      exact ih h
    | fault | refused => simp [execAll, hi] at h

/-! ### Typed values (R134, R135) -/

/-- The bytes of a typed value, zero beyond its size (R122 to R125). -/
def Typed.payload : Typed → Payload
  | .u8 v => v.setWidth 64
  | .u16 v => v.setWidth 64
  | .bool b => if b then 1 else 0
  | .float p => p.setWidth 64

/-- The payload is what the value's append writes. -/
theorem appendOf_append (v : Typed) : appendOf v.append = some (v.size, v.payload) := by
  cases v with
  | u8 v | u16 v | float v =>
    simp only [Typed.append, appendOf, Typed.size, Typed.payload, Option.some.injEq, Prod.mk.injEq, true_and]
    bv_omega
  | bool b => cases b <;> rfl

theorem readSize_read (v : Typed) : readSize v.read = some v.size := by
  cases v <;> rfl

/-- A value's read makes its result of the bytes that its append wrote (R134). -/
theorem readResult_payload (v : Typed) : readResult v.read v.payload = v.result := by
  cases v with
  | u8 v | u16 v | float v =>
    simp only [readResult, Typed.read, Typed.payload, Typed.result, reduceCtorEq, if_false]
    bv_omega
  | bool b => cases b <;> rfl

theorem maskBytes_payload (v : Typed) : maskBytes v.size v.payload = v.payload := by
  cases v with
  | u8 v | u16 v | float v =>
    apply BitVec.eq_of_getLsbD_eq
    intro i hi
    simp only [getLsbD_maskBytes, Typed.payload, Typed.size, BitVec.getLsbD_setWidth, hi, decide_true,
      Bool.true_and, Bool.and_eq_left_iff_imp]
    exact fun hbit => decide_eq_true (BitVec.lt_of_getLsbD hbit)
  | bool b => cases b <;> rfl

/-- The values stand in the buffer one after another from address `a`. -/
def HoldsTyped (m : Memory) : Nat → List Typed → Prop
  | _, [] => True
  | a, v :: vs => Memory.readN m a v.size = v.payload ∧ HoldsTyped m (a + v.size) vs

/-- What stands in a buffer stands in every buffer with the same bytes. -/
theorem HoldsTyped.congr {m m' : Memory} {a : Nat} {vs : List Typed} (h : HoldsTyped m a vs)
    (ha : a + (vs.map Typed.size).sum ≤ 8) (hm : ∀ k, k < 8 → Memory.read m k = Memory.read m' k) :
    HoldsTyped m' a vs := by
  induction vs generalizing a with
  | nil => trivial
  | cons v vs ih =>
    obtain ⟨hv, hvs⟩ := h
    simp only [List.map_cons, List.sum_cons] at ha
    refine ⟨?_, ih hvs (by omega)⟩
    rw [← hv, readN_congr fun k _ hk => hm k (by omega)]

/-- Appending values that fit leaves them in the buffer from the cursor on, and the bytes below it as they
were (R121, R135). -/
theorem execAll_typedAppends {vs : List Typed} {s : State} (hwf : s.buf.wf = true)
    (hfit : s.cur.toNat + (vs.map Typed.size).sum ≤ 8) :
    ∃ t, execAll (vs.map Typed.append) s = .next t ∧
      (∀ a, a < s.cur.toNat → t.buf.read a = s.buf.read a) ∧ HoldsTyped t.buf s.cur.toNat vs := by
  induction vs generalizing s with
  | nil => exact ⟨s, rfl, fun _ _ => rfl, trivial⟩
  | cons v vs ih =>
    simp only [List.map_cons, List.sum_cons] at hfit
    have room : s.cur.toNat + v.size ≤ bufBytes := by simp only [bufBytes]; omega
    have cursor := appendOp_cur (v := v.payload) room
    have buffer := appendOp_buf (v := v.payload) room
    obtain ⟨t, ht, below, holds⟩ := ih (s := appendOp v.size v.payload s)
      (by rw [buffer]; exact writeN_wf room hwf) (by omega)
    rw [cursor] at below holds
    rw [buffer] at below
    have written := exec_typedAppend s (appendOf_append v)
    refine ⟨t, (execAll_cons written).trans ht, fun a ha => ?below, ?value, holds⟩
    case below => rw [below a (by omega), read_writeN_outside (.inl ha)]
    case value =>
      rw [readN_congr fun k _ hk => below k hk, readN_writeN room hwf, maskBytes_payload]

/-- Reading values that stand at the cursor answers each of them in order and moves the cursor past them
(R126, R135). -/
theorem execAll_typedReads {vs : List Typed} {s : State} (holds : HoldsTyped s.buf s.cur.toNat vs)
    (hfit : s.cur.toNat + (vs.map Typed.size).sum ≤ 8) :
    ∃ u, execAll (vs.map Typed.read) s = .next u ∧
      u.rsp = (vs.map fun v => Response.values v.result 0).reverse ++ s.rsp ∧
      u.cur.toNat = s.cur.toNat + (vs.map Typed.size).sum := by
  induction vs generalizing s with
  | nil => exact ⟨s, rfl, rfl, rfl⟩
  | cons v vs ih =>
    obtain ⟨value, rest⟩ := holds
    simp only [List.map_cons, List.sum_cons] at hfit ⊢
    have room : s.cur.toNat + v.size ≤ bufBytes := by simp only [bufBytes]; omega
    have cursor : (readOp v.size (readResult v.read) s).cur.toNat = s.cur.toNat + v.size := by
      rw [readOp_cur, Nat.min_eq_left room]
    have answer : (readOp v.size (readResult v.read) s).rsp = Response.values v.result 0 :: s.rsp := by
      rw [readOp, respond_rsp, value, readResult_payload]
    obtain ⟨u, hu, hrsp, hcur⟩ := ih (by rwa [cursor]) (by omega)
    refine ⟨u, (execAll_cons (exec_typedRead s (readSize_read v))).trans hu, ?_, ?_⟩
    · rw [hrsp, answer, List.reverse_cons, List.append_cons]
    · rw [hcur, cursor, Nat.add_assoc]

/-- A buffer that is taken out and loaded again after `CLEAR` has the same bytes (R134). -/
theorem read_reloaded (m : Memory) {k : Nat} (hk : k < 8) :
    Memory.read (frameBuffer 8 (Memory.readN m 0 bufBytes)) k = Memory.read m k := by
  rw [read_frameBuffer _ _ le_rfl, byteOf_maskBytes, if_pos hk, byteOf_wholeBuffer m hk]

/-- Settles O9: the appends leave the values in the buffer (`execAll_typedAppends`), the loaded buffer has the
same bytes (`read_reloaded`), and the reads answer the values that stand there (`execAll_typedReads`). -/
theorem typedSequenceRoundTrip : Obligations.TypedSequenceRoundTrip := by
  intro vs s hfit
  have fromZero : 0 + (vs.map Typed.size).sum ≤ 8 := by rwa [Nat.zero_add]
  obtain ⟨t, ht, -, holds⟩ := execAll_typedAppends (s := clearOp s) rfl fromZero
  refine ⟨getBufOp t, (execAll_cons rfl).trans (execAll_append ht), ?_⟩
  obtain ⟨u, hu, hrsp, hcur⟩ := execAll_typedReads
    (s := putBufOp 8 (Memory.readN t.buf 0 bufBytes) (clearOp (getBufOp t)))
    (holds.congr fromZero fun k hk => (read_reloaded t.buf hk).symm) fromZero
  refine ⟨u, ((execAll_cons rfl).trans (execAll_cons rfl)).trans hu, ?_, hcur.trans (Nat.zero_add _)⟩
  rw [hrsp, List.take_left' (by simp), List.reverse_reverse, List.map_map]
  rfl

end Sys2Proof.Machine

/-! SUPPORT. The Address Codec (R140 to R144): what each operation answers, as arithmetic on its operands. `PACK`
joins two digits in base 64 and `UNPACK` splits a number into them; `PACKNIB` and `UNPACKNIB` do so in base 16. -/

namespace Sys2Proof.Machine

/-! ### Joining and splitting bit fields -/

/-- The low `k` bits of two operands side by side are the two digits of a number in base `2 ^ k` (R80, R81). -/
theorem toNat_lowBits_append {n : Nat} (a b : BitVec n) (k : Nat) :
    (a.extractLsb' 0 k ++ b.extractLsb' 0 k).toNat = a.toNat % 2 ^ k * 2 ^ k + b.toNat % 2 ^ k := by
  simp only [BitVec.toNat_append, BitVec.extractLsb'_toNat, Nat.shiftRight_zero]
  rw [← Nat.shiftLeft_add_eq_or_of_lt (Nat.mod_lt _ (Nat.two_pow_pos k)), Nat.shiftLeft_eq]

/-- A field that lies in the `m` bits an operation uses is a digit of the whole operand (R90). -/
theorem toNat_field_setWidth {n j k m : Nat} (v : BitVec n) (h : j + k ≤ m) :
    ((v.setWidth m).extractLsb' j k).toNat = v.toNat / 2 ^ j % 2 ^ k := by
  have field : (v.setWidth m).extractLsb' j k = v.extractLsb' j k := by
    apply BitVec.eq_of_getLsbD_eq
    intro i hi
    simp [show j + i < m by omega]
  rw [field, BitVec.extractLsb'_toNat, Nat.shiftRight_eq_div_pow]

/-- A value in a response word (R88). -/
theorem setWidth_eq_ofNat {n x : Nat} {b : BitVec n} (h : b.toNat = x) (w : Nat) :
    b.setWidth w = BitVec.ofNat w x := by
  rw [← h, BitVec.ofNat_toNat]

/-! ### What each operation answers -/

theorem exec_pack (a b : BitVec 16) (s : State) :
    exec (.pack a b) s = .next (respond
      (Response.values (BitVec.ofNat 32 (a.toNat % 64 * 64 + b.toNat % 64)) 0) s) := by
  have joined : (packIdent a b).toNat = a.toNat % 64 * 64 + b.toNat % 64 := toNat_lowBits_append a b 6
  change Host.Outcome.next (packOp a b s) = _
  rw [packOp, setWidth_eq_ofNat joined]

theorem exec_unpack (v : Word32) (s : State) :
    exec (.unpack v) s = .next (respond
      (Response.values (BitVec.ofNat 32 (v.toNat / 64 % 64)) (BitVec.ofNat 32 (v.toNat % 64))) s) := by
  have dest : (destOf (v.setWidth 12)).toNat = v.toNat / 64 % 64 := toNat_field_setWidth v (by decide)
  have source : (sourceOf (v.setWidth 12)).toNat = v.toNat / 1 % 64 := toNat_field_setWidth v (by decide)
  rw [Nat.div_one] at source
  change Host.Outcome.next (unpackOp v s) = _
  rw [unpackOp, setWidth_eq_ofNat dest, setWidth_eq_ofNat source]

theorem exec_packNib (a b : BitVec 16) (s : State) :
    exec (.packNib a b) s = .next (respond
      (Response.values (BitVec.ofNat 32 (a.toNat % 16 * 16 + b.toNat % 16)) 0) s) := by
  have joined : (packNibbles a b).toNat = a.toNat % 16 * 16 + b.toNat % 16 := toNat_lowBits_append a b 4
  change Host.Outcome.next (packNibOp a b s) = _
  rw [packNibOp, setWidth_eq_ofNat joined]

theorem exec_unpackNib (v : Word32) (s : State) :
    exec (.unpackNib v) s = .next (respond
      (Response.values (BitVec.ofNat 32 (v.toNat / 16 % 16)) (BitVec.ofNat 32 (v.toNat % 16))) s) := by
  have high : (highNibble (v.setWidth 8)).toNat = v.toNat / 16 % 16 := toNat_field_setWidth v (by decide)
  have low : (lowNibble (v.setWidth 8)).toNat = v.toNat / 1 % 16 := toNat_field_setWidth v (by decide)
  rw [Nat.div_one] at low
  change Host.Outcome.next (unpackNibOp v s) = _
  rw [unpackNibOp, setWidth_eq_ofNat high, setWidth_eq_ofNat low]

/-- Settles O10, by the decoder's arms and what `PACK` and `UNPACK` answer. -/
theorem packAndUnpackMaskOperands : Obligations.PackAndUnpackMaskOperands := by
  obtain ⟨-, -, -, -, -, -, -, -, -, -, -, -, -, hpack, hunpack, -⟩ := commandWordDecodesByOpcode
  exact ⟨hpack, hunpack, fun a b v s => ⟨exec_pack a b s, exec_unpack v s⟩⟩

/-- Settles O11, by the decoder's arms and what `PACKNIB` and `UNPACKNIB` answer. -/
theorem packNibAndUnpackNibMaskOperands : Obligations.PackNibAndUnpackNibMaskOperands := by
  obtain ⟨-, -, -, -, -, -, -, -, -, -, -, -, -, -, -, hpackNib, hunpackNib, -⟩ := commandWordDecodesByOpcode
  exact ⟨hpackNib, hunpackNib, fun a b v s => ⟨exec_packNib a b s, exec_unpackNib v s⟩⟩

/-! ### The round trips (R144) -/

/-- Settles O12: two digits that are joined split into themselves again, and the two lowest digits of a number
join to the number without its higher digits. No digit is lost on the way, in a response word of 32 bits or in
an operand of 16. -/
theorem addressCodecLaws : Obligations.AddressCodecLaws := by
  refine ⟨
    fun a b s => ⟨_, _, exec_pack a b s, exec_unpack .., ?dest, ?source⟩,
    fun v s => ⟨_, _, exec_unpack v s, exec_pack .., ?ident⟩,
    fun a b s => ⟨_, _, exec_packNib a b s, exec_unpackNib .., ?high, ?low⟩,
    fun v s => ⟨_, _, exec_unpackNib v s, exec_packNib .., ?byte⟩⟩
  case dest | source | high | low =>
    simp only [res0_respond, res1_respond, values_res0, values_res1, BitVec.toNat_ofNat]
    omega
  case ident | byte =>
    simp only [res0_respond, res1_respond, values_res0, values_res1, BitVec.toNat_setWidth, BitVec.toNat_ofNat]
    omega

end Sys2Proof.Machine

/-! SUPPORT. What each operation of the Frame Matcher does, as it is accepted and in any later iteration: an
equation for each case of R151 to R158, and the two runs to an operation's end (R157, R159). -/

namespace Sys2Proof.Machine

/-! ### The filter and the queue -/

theorem isMatch_eq_false_iff {f : Frame} {id mask : Ident} :
    f.isMatch id mask = false ↔ f.id &&& mask ≠ id &&& mask := by
  rw [← Bool.not_eq_true, isMatch_iff]

theorem takeFirst_of_noneMatch {id mask : Ident} {q : List Frame} (h : NoneMatch id mask q) :
    takeFirst id mask q = none :=
  takeFirst_eq_none.mpr (anyMatch_eq_false_iff.mpr h)

theorem anyMatch_of_exists {id mask : Ident} {q : List Frame} (h : ∃ f ∈ q, f.id &&& mask = id &&& mask) :
    anyMatch id mask q = true := by
  obtain ⟨f, hf, hid⟩ := h
  exact List.any_eq_true.mpr ⟨f, hf, isMatch_iff.mpr hid⟩

theorem queueFull_of_depth_le {d : Nat} {s : State} (hd : s.params.pqDepth = some d) (h : d ≤ s.pq.length) :
    s.queueFull = true := by
  simp [State.queueFull, hd, h]

theorem queueFull_of_unbounded {s : State} (h : s.params.pqDepth = none) : s.queueFull = false := by
  simp [State.queueFull, h]

theorem queueFull_advance (s : State) : s.advance.queueFull = s.queueFull := by
  simp [State.queueFull]

/-! ### The transport's calls, each case by its inputs (R151, R171 to R176) -/

section Calls

variable {s : State} {f : Frame} {q : List Frame}

theorem transportAvail_failing (ha : s.link.availFails = true) : transportAvail s = .error .transportError := by
  simp [transportAvail, ha]

theorem transportAvail_silent (ha : s.link.availFails = false) (ht : s.tq = []) : transportAvail s = .ok false := by
  simp [transportAvail, ha, ht]

theorem transportAvail_ready (ha : s.link.availFails = false) (ht : s.tq ≠ []) : transportAvail s = .ok true := by
  simp [transportAvail, ha, ht]

theorem recv_full (hq : s.queueFull = true) : recv s = .error .queueFull := by
  simp [recv, hq]

theorem recv_failing (hq : s.queueFull = false) (hr : s.link.readFails = true) :
    recv s = .error .transportError := by
  simp [recv, transportRead, hq, hr]

theorem recv_silent (hq : s.queueFull = false) (hr : s.link.readFails = false) (ht : s.tq = []) :
    recv s = .ok none := by
  simp [recv, transportRead, hq, hr, ht]

theorem recv_ready (hq : s.queueFull = false) (hr : s.link.readFails = false) (ht : s.tq = f :: q) :
    recv s = .ok (some (f.canon, { s with tq := q })) := by
  simp [recv, transportRead, hq, hr, ht]

end Calls

/-! ### An iteration of `READM` (R153) -/

section ReadM

variable {s : State} {f : Frame} {q : List Frame}

theorem iterReadM_full (hq : s.queueFull = true) : iterReadM s = raise .queueFull s := by
  simp only [iterReadM, recv_full hq]

theorem iterReadM_failing (hq : s.queueFull = false) (hr : s.link.readFails = true) :
    iterReadM s = raise .transportError s := by
  simp only [iterReadM, recv_failing hq hr]

theorem iterReadM_silent (hq : s.queueFull = false) (hr : s.link.readFails = false) (ht : s.tq = []) :
    iterReadM s = s := by
  simp only [iterReadM, recv_silent hq hr ht]

theorem iterReadM_match (hq : s.queueFull = false) (hr : s.link.readFails = false) (ht : s.tq = f :: q)
    (hm : f.id &&& s.opMask = s.opId &&& s.opMask) : iterReadM s = respondFound f.canon { s with tq := q } := by
  simp only [iterReadM, recv_ready hq hr ht, canon_isMatch, isMatch_iff.mpr hm, if_true]

theorem iterReadM_miss (hq : s.queueFull = false) (hr : s.link.readFails = false) (ht : s.tq = f :: q)
    (hm : f.id &&& s.opMask ≠ s.opId &&& s.opMask) :
    iterReadM s = { s with tq := q, pq := s.pq ++ [f.canon] } := by
  simp only [iterReadM, recv_ready hq hr ht, canon_isMatch, isMatch_eq_false_iff.mpr hm]
  rfl

end ReadM

/-! ### An iteration of `READMT` (R154, R155) -/

section ReadMT

variable {s : State} {f : Frame} {q : List Frame}

theorem deadlineTest_reached (h : s.dl ≤ s.now + s.link.lag) :
    deadlineTest s = respond Response.ok { s with now := s.now + s.link.lag } :=
  if_pos h

theorem deadlineTest_pending (h : s.now + s.link.lag < s.dl) :
    deadlineTest s = { s with now := s.now + s.link.lag } :=
  if_neg (Nat.not_le.mpr h)

theorem iterReadMT_buffered (hpq : takeFirst s.opId s.opMask s.pq = some (f, q)) :
    iterReadMT s = respondFound f { s with pq := q } := by
  simp only [iterReadMT, hpq]

theorem iterReadMT_failing (hpq : NoneMatch s.opId s.opMask s.pq) (h : s.askOrReadFails) :
    iterReadMT s = raise .transportError s := by
  cases ha : s.link.availFails with
  | true => simp only [iterReadMT, takeFirst_of_noneMatch hpq, transportAvail_failing ha]
  | false =>
    obtain ⟨ht, hq, hr⟩ := h.resolve_left (by simp [ha])
    simp only [iterReadMT, takeFirst_of_noneMatch hpq, transportAvail_ready ha ht, recv_failing hq hr]

theorem iterReadMT_silent (hpq : NoneMatch s.opId s.opMask s.pq) (ha : s.link.availFails = false) (ht : s.tq = []) :
    iterReadMT s = deadlineTest s := by
  simp only [iterReadMT, takeFirst_of_noneMatch hpq, transportAvail_silent ha ht]

theorem iterReadMT_full (hpq : NoneMatch s.opId s.opMask s.pq) (ha : s.link.availFails = false) (ht : s.tq ≠ [])
    (hq : s.queueFull = true) : iterReadMT s = raise .queueFull s := by
  simp only [iterReadMT, takeFirst_of_noneMatch hpq, transportAvail_ready ha ht, recv_full hq]

theorem iterReadMT_match (hpq : NoneMatch s.opId s.opMask s.pq) (ha : s.link.availFails = false)
    (hq : s.queueFull = false) (hr : s.link.readFails = false) (ht : s.tq = f :: q)
    (hm : f.id &&& s.opMask = s.opId &&& s.opMask) :
    iterReadMT s = respondFound f.canon { s with tq := q } := by
  have ready : s.tq ≠ [] := by simp [ht]
  simp only [iterReadMT, takeFirst_of_noneMatch hpq, transportAvail_ready ha ready, recv_ready hq hr ht,
    canon_isMatch, isMatch_iff.mpr hm, if_true]

theorem iterReadMT_miss (hpq : NoneMatch s.opId s.opMask s.pq) (ha : s.link.availFails = false)
    (hq : s.queueFull = false) (hr : s.link.readFails = false) (ht : s.tq = f :: q)
    (hm : f.id &&& s.opMask ≠ s.opId &&& s.opMask) :
    iterReadMT s = deadlineTest { s with tq := q, pq := s.pq ++ [f.canon] } := by
  have ready : s.tq ≠ [] := by simp [ht]
  simp only [iterReadMT, takeFirst_of_noneMatch hpq, transportAvail_ready ha ready, recv_ready hq hr ht,
    canon_isMatch, isMatch_eq_false_iff.mpr hm]
  rfl

theorem iterReadMT_silent_reached (hpq : NoneMatch s.opId s.opMask s.pq) (ha : s.link.availFails = false)
    (ht : s.tq = []) (h : s.dl ≤ s.now + s.link.lag) :
    iterReadMT s = respond Response.ok { s with now := s.now + s.link.lag } := by
  rw [iterReadMT_silent hpq ha ht, deadlineTest_reached h]

theorem iterReadMT_silent_pending (hpq : NoneMatch s.opId s.opMask s.pq) (ha : s.link.availFails = false)
    (ht : s.tq = []) (h : s.now + s.link.lag < s.dl) : iterReadMT s = { s with now := s.now + s.link.lag } := by
  rw [iterReadMT_silent hpq ha ht, deadlineTest_pending h]

theorem iterReadMT_miss_reached (hpq : NoneMatch s.opId s.opMask s.pq) (ha : s.link.availFails = false)
    (hq : s.queueFull = false) (hr : s.link.readFails = false) (ht : s.tq = f :: q)
    (hm : f.id &&& s.opMask ≠ s.opId &&& s.opMask) (h : s.dl ≤ s.now + s.link.lag) :
    iterReadMT s = respond Response.ok
      { s with tq := q, pq := s.pq ++ [f.canon], now := s.now + s.link.lag } :=
  (iterReadMT_miss hpq ha hq hr ht hm).trans (deadlineTest_reached h)

theorem iterReadMT_miss_pending (hpq : NoneMatch s.opId s.opMask s.pq) (ha : s.link.availFails = false)
    (hq : s.queueFull = false) (hr : s.link.readFails = false) (ht : s.tq = f :: q)
    (hm : f.id &&& s.opMask ≠ s.opId &&& s.opMask) (h : s.now + s.link.lag < s.dl) :
    iterReadMT s = { s with tq := q, pq := s.pq ++ [f.canon], now := s.now + s.link.lag } :=
  (iterReadMT_miss hpq ha hq hr ht hm).trans (deadlineTest_pending h)

theorem found_ne_ok (f : Frame) : Response.found f ≠ Response.ok := ne_of_apply_ne Response.hit nofun

theorem transportError_ne_ok : Response.error .transportError ≠ Response.ok := ne_of_apply_ne Response.status nofun

theorem queueFull_ne_ok : Response.error .queueFull ≠ Response.ok := ne_of_apply_ne Response.status nofun

/-- An iteration of `READMT` ends with a response other than `NOFRAME`, or makes its deadline test with the
deadline, the time and the responses as they were. -/
theorem iterReadMT_ends_or_tests (s : State) :
    (∃ r u, r ≠ Response.ok ∧ u.rsp = s.rsp ∧ iterReadMT s = respond r u) ∨
    (∃ u, u.dl = s.dl ∧ u.now = s.now ∧ u.link = s.link ∧ u.rsp = s.rsp ∧ iterReadMT s = deadlineTest u) := by
  rcases iterReadMT_cases s with ⟨f, q, -, e⟩ |
    ⟨-, ⟨-, e⟩ | ⟨-, -, e⟩ | ⟨-, -, e⟩ | ⟨-, -, -, e⟩ | ⟨f, q, -, -, -, e⟩ | ⟨f, q, -, -, -, e⟩⟩
  · exact .inl ⟨_, { s with pq := q }, found_ne_ok f, rfl, e⟩
  · exact .inl ⟨_, _, transportError_ne_ok, rfl, e⟩
  · exact .inr ⟨s, rfl, rfl, rfl, rfl, e⟩
  · exact .inl ⟨_, _, queueFull_ne_ok, rfl, e⟩
  · exact .inl ⟨_, _, transportError_ne_ok, rfl, e⟩
  · exact .inl ⟨_, { s with tq := q }, found_ne_ok f.canon, rfl, e⟩
  · exact .inr ⟨State.enqueue f.canon { s with tq := q }, rfl, rfl, rfl, rfl, e⟩

end ReadMT

/-! ### An iteration of `AVAILM`'s drain (R156) and of `MRESET`'s flush (R157) -/

section Drain

variable {s : State} {f : Frame} {q : List Frame}

theorem iterAvailM_failing (h : s.askOrReadFails) : iterAvailM s = raise .transportError s := by
  cases ha : s.link.availFails with
  | true => simp only [iterAvailM, transportAvail_failing ha]
  | false =>
    obtain ⟨ht, hq, hr⟩ := h.resolve_left (by simp [ha])
    simp only [iterAvailM, transportAvail_ready ha ht, recv_failing hq hr]

theorem iterAvailM_full (ha : s.link.availFails = false) (ht : s.tq ≠ []) (hq : s.queueFull = true) :
    iterAvailM s = raise .queueFull s := by
  simp only [iterAvailM, transportAvail_ready ha ht, recv_full hq]

theorem iterAvailM_found (ha : s.link.availFails = false) (ht : s.tq = [])
    (hm : ∃ f ∈ s.pq, f.id &&& s.opMask = s.opId &&& s.opMask) :
    iterAvailM s = respond (Response.values 1 0) s := by
  simp only [iterAvailM, transportAvail_silent ha ht, anyMatch_of_exists hm, if_true]

theorem iterAvailM_none (ha : s.link.availFails = false) (ht : s.tq = []) (hm : NoneMatch s.opId s.opMask s.pq) :
    iterAvailM s = respond (Response.values 0 0) s := by
  simp [iterAvailM, transportAvail_silent ha ht, anyMatch_eq_false_iff.mpr hm]

theorem iterAvailM_drains (ha : s.link.availFails = false) (hr : s.link.readFails = false)
    (hq : s.queueFull = false) (ht : s.tq = f :: q) :
    iterAvailM s = { s with tq := q, pq := s.pq ++ [f.canon] } := by
  have ready : s.tq ≠ [] := by simp [ht]
  simp only [iterAvailM, transportAvail_ready ha ready, recv_ready hq hr ht]
  rfl

theorem iterMReset_flushes (ho : s.params.offersFlush = true) (hf : s.link.flushFails = false) :
    iterMReset s = respond Response.ok { s with tq := [] } := by
  simp [iterMReset, transportFlush, ho, hf]

theorem iterMReset_flush_failing (ho : s.params.offersFlush = true) (hf : s.link.flushFails = true) :
    iterMReset s = raise .transportError { s with tq := s.link.flushLeaves } := by
  simp [iterMReset, transportFlush, ho, hf]

theorem iterMReset_failing (ho : s.params.offersFlush = false)
    (h : s.link.availFails = true ∨ (s.tq ≠ [] ∧ s.link.readFails = true)) :
    iterMReset s = raise .transportError s := by
  cases ha : s.link.availFails with
  | true => simp [iterMReset, ho, transportAvail_failing ha]
  | false =>
    obtain ⟨ht, hr⟩ := h.resolve_left (by simp [ha])
    simp [iterMReset, ho, transportAvail_ready ha ht, transportRead, hr]

theorem iterMReset_silent (ho : s.params.offersFlush = false) (ha : s.link.availFails = false) (ht : s.tq = []) :
    iterMReset s = respond Response.ok s := by
  simp [iterMReset, ho, transportAvail_silent ha ht]

theorem iterMReset_discards (ho : s.params.offersFlush = false) (ha : s.link.availFails = false)
    (hr : s.link.readFails = false) (ht : s.tq = f :: q) : iterMReset s = { s with tq := q } := by
  have ready : s.tq ≠ [] := by simp [ht]
  simp [iterMReset, ho, transportAvail_ready ha ready, transportRead, hr, ht]

end Drain

/-! ### Acceptance: an answer from the queue, or the first iteration (R161) -/

section Acceptance

variable {id mask : Ident} {s t : State}

theorem exec_tryTake (id mask : Ident) (s : State) : exec (.tryTake id mask) s = .next (tryTakeOp id mask s) := rfl

theorem exec_readM_buffered {f : Frame} {q : List Frame} (h : takeFirst id mask s.pq = some (f, q)) :
    exec (.readM id mask) s = .next (respondFound f { accept .readM id mask s with pq := q }) := by
  change Host.Outcome.next (startReadM id mask s) = _
  simp only [startReadM, h]

theorem exec_readM_iterates (hpq : NoneMatch id mask s.pq) (h : iterReadM (accept .readM id mask s) = t) :
    exec (.readM id mask) s = .next t := by
  change Host.Outcome.next (startReadM id mask s) = _
  simp only [startReadM, takeFirst_of_noneMatch hpq, h]

/-- `READMT` searches the queue inside its first iteration (R154). -/
theorem exec_readMT_iterates {time : Word32}
    (h : iterReadMT { accept .readMT id mask s with dl := s.now + time.toNat } = t) :
    exec (.readMT time id mask) s = .next t :=
  congrArg Host.Outcome.next h

theorem exec_availM_buffered (h : ∃ f ∈ s.pq, f.id &&& mask = id &&& mask) :
    exec (.availM id mask) s = .next (respond (Response.values 1 0) (accept .availM id mask s)) := by
  change Host.Outcome.next (startAvailM id mask s) = _
  simp only [startAvailM, anyMatch_of_exists h, if_true]

theorem exec_availM_iterates (hpq : NoneMatch id mask s.pq) (h : iterAvailM (accept .availM id mask s) = t) :
    exec (.availM id mask) s = .next t := by
  change Host.Outcome.next (startAvailM id mask s) = _
  simp [startAvailM, anyMatch_eq_false_iff.mpr hpq, h]

theorem exec_mReset_iterates (h : iterMReset { s with op := some .mReset, pq := [] } = t) :
    exec .mReset s = .next t :=
  congrArg Host.Outcome.next h

end Acceptance

/-! ### The queue is searched first -/

/-- Settles O13: the search finds the first match and takes only it out (`takeFirst_append`), or finds none. -/
theorem tryTakeRemovesFirstMatch : Obligations.TryTakeRemovesFirstMatch := by
  obtain ⟨-, -, -, -, -, -, -, -, -, -, -, -, -, -, -, -, -, htryTake, -⟩ := commandWordDecodesByOpcode
  refine ⟨htryTake, fun id mask l₁ l₂ f s hpq hl₁ hf => ?found, fun id mask s hpq => ?none⟩
  case found =>
    have first : takeFirst id mask s.pq = some (f, l₁ ++ l₂) := hpq ▸ takeFirst_append hl₁ (isMatch_iff.mpr hf)
    rw [exec_tryTake, tryTakeOp, first]
    rfl
  case none =>
    rw [exec_tryTake, tryTakeOp, takeFirst_of_noneMatch hpq]
    rfl

/-- Settles O14: both reads search the queue before they call the transport. -/
theorem readReturnsBufferedMatchFirst : Obligations.ReadReturnsBufferedMatchFirst := by
  intro id mask time l₁ l₂ f s hpq hl₁ hf
  have first : takeFirst id mask s.pq = some (f, l₁ ++ l₂) := hpq ▸ takeFirst_append hl₁ (isMatch_iff.mpr hf)
  exact ⟨exec_readM_buffered first, exec_readMT_iterates (iterReadMT_buffered first)⟩

/-! ### A frame at the head of the backlog -/

/-- Settles O15, by the iteration of each read on a matching frame. -/
theorem readReturnsMatchFromTransport : Obligations.ReadReturnsMatchFromTransport := by
  refine ⟨fun id mask time f q s hpq hq hr ha ht hm => ⟨?_, ?_⟩, fun f q s hq hr ht hm => ⟨fun _ => ?_, ?_⟩⟩
  · exact exec_readM_iterates hpq (iterReadM_match hq hr ht hm)
  · exact exec_readMT_iterates (iterReadMT_match hpq ha hq hr ht hm)
  · exact iterReadM_match hq hr ht hm
  · exact fun _ hpq ha => iterReadMT_match hpq ha hq hr ht hm

/-- Settles O16, by the iteration of each read on a frame that does not match; `READMT`'s then makes its deadline
test. As the read is accepted the deadline lies `time` ticks ahead, so that the test compares `time` with the
lag. -/
theorem readQueuesNonMatchingFrame : Obligations.ReadQueuesNonMatchingFrame := by
  refine ⟨fun id mask time f q s hpq hq hr ha ht hm => ⟨?_, ?_, ?_⟩, fun f q s hq hr ht hm => ⟨fun _ => ?_, ?_⟩⟩
  · exact exec_readM_iterates hpq (iterReadM_miss hq hr ht hm)
  · exact fun h => exec_readMT_iterates
      (iterReadMT_miss_reached hpq ha hq hr ht hm (Nat.add_le_add_left h s.now))
  · exact fun h => exec_readMT_iterates
      (iterReadMT_miss_pending hpq ha hq hr ht hm (Nat.add_lt_add_left h s.now))
  · exact iterReadM_miss hq hr ht hm
  · exact fun _ hpq ha => ⟨iterReadMT_miss_reached hpq ha hq hr ht hm, iterReadMT_miss_pending hpq ha hq hr ht hm⟩

/-! ### A silent transport -/

/-- Settles O17: with nothing to read an iteration of `READMT` is its deadline test. -/
theorem timedReadOnSilentTransport : Obligations.TimedReadOnSilentTransport := by
  refine ⟨fun id mask time s hpq ha ht => ⟨?_, ?_⟩, fun s _ hpq ha ht => ⟨?_, ?_⟩⟩
  · exact fun h => exec_readMT_iterates (iterReadMT_silent_reached hpq ha ht (Nat.add_le_add_left h s.now))
  · exact fun h => exec_readMT_iterates (iterReadMT_silent_pending hpq ha ht (Nat.add_lt_add_left h s.now))
  · exact iterReadMT_silent_reached hpq ha ht
  · exact iterReadMT_silent_pending hpq ha ht

/-- Settles O18: an iteration of `READM` on a silent transport changes nothing, and the environment's move before
it leaves the queue as it is. -/
theorem untimedReadWaitsWhileTransportSilent : Obligations.UntimedReadWaitsWhileTransportSilent := by
  intro id mask s hpq hq hr ht
  refine ⟨exec_readM_iterates hpq (iterReadM_silent hq hr ht), fun hop hreset hr' ht' => ?_⟩
  have waits : iterate .readM s.advance = s.advance := iterReadM_silent ((queueFull_advance s).trans hq) hr' ht'
  rw [step_busy hop hreset, waits]

/-- Settles O26: of all that an iteration of `READMT` can do, only its deadline test answers `NOFRAME`, and only
its deadline test leaves it in progress. -/
theorem timedReadAnswersOnlyAfterDeadline : Obligations.TimedReadAnswersOnlyAfterDeadline := by
  intro s _
  rcases iterReadMT_ends_or_tests s with ⟨r, u, hr, hrsp, e⟩ | ⟨u, hdl, hnow, hlink, hrsp, e⟩
  · refine ⟨fun h => ?_, fun _ => by rw [e]; rfl⟩
    rw [e, respond_rsp, hrsp] at h
    exact absurd (List.head_eq_of_cons_eq h) hr
  · rw [← hdl, ← hnow, ← hlink, ← hrsp, e]
    rcases deadlineTest_cases u with ⟨reached, e'⟩ | ⟨pending, e'⟩
    · rw [e']
      exact ⟨fun _ => reached, fun _ => rfl⟩
    · rw [e']
      exact ⟨fun h => absurd h (by simp), fun h => absurd h (Nat.not_le.mpr pending)⟩

/-! ### A full queue and a failed call -/

/-- Settles O19: `recv` checks the capacity before it reads (R151). -/
theorem fullQueueStopsBeforeTheRead : Obligations.FullQueueStopsBeforeTheRead := by
  constructor
  case left =>
    intro id mask time d s hpq hd hlen
    have full : s.queueFull = true := queueFull_of_depth_le hd hlen
    exact ⟨exec_readM_iterates hpq (iterReadM_full full), fun ht ha =>
      ⟨exec_readMT_iterates (iterReadMT_full hpq ha ht full), exec_availM_iterates hpq (iterAvailM_full ha ht full)⟩⟩
  case right =>
    intro d s hd hlen
    have full : s.queueFull = true := queueFull_of_depth_le hd hlen
    exact ⟨fun _ => iterReadM_full full, fun ht ha =>
      ⟨fun _ hpq => iterReadMT_full hpq ha ht full, fun _ => iterAvailM_full ha ht full⟩⟩

/-- Settles O20, by the failing case of each iteration and of `SENDF`. -/
theorem transportFailureEndsOperation : Obligations.TransportFailureEndsOperation := by
  refine ⟨fun id mask time s hpq => ⟨?_, ?_, ?_⟩, fun s => ⟨?_, ?_, ?_⟩, fun s => ⟨?_, ?_⟩, ?sendF⟩
  · exact fun hq hr => exec_readM_iterates hpq (iterReadM_failing hq hr)
  · exact fun h => exec_readMT_iterates (iterReadMT_failing hpq h)
  · exact fun h => exec_availM_iterates hpq (iterAvailM_failing h)
  · exact iterReadM_failing
  · exact iterReadMT_failing
  · exact iterAvailM_failing
  · exact fun ho h => ⟨exec_mReset_iterates (iterMReset_failing ho h), iterMReset_failing ho h⟩
  · exact fun ho hf => ⟨exec_mReset_iterates (iterMReset_flush_failing ho hf), iterMReset_flush_failing ho hf⟩
  case sendF =>
    intro id len s hw hlen
    change Host.Outcome.next (sendOp id len.toNat s) = _
    rcases sendOp_cases id len.toNat s with ⟨hbig, -⟩ | ⟨-, -, h⟩ | ⟨-, hw', -⟩
    · exact absurd hlen (Nat.not_le.mpr hbig)
    · rw [h]; rfl
    · simp [hw] at hw'

/-! ### `AVAILM` and `MRESET` -/

/-- Settles O21, by the answer from the queue and each case of the drain's iteration. -/
theorem availabilityCheckDrainsTransport : Obligations.AvailabilityCheckDrainsTransport := by
  refine ⟨fun id mask s => ⟨?_, ?_, ?_⟩, fun s _ ha => ⟨?_, ?_, ?_⟩⟩
  · exact exec_availM_buffered
  · exact fun hpq ha ht => exec_availM_iterates hpq (iterAvailM_none ha ht hpq)
  · exact fun f q hpq ha hr hq ht => exec_availM_iterates hpq (iterAvailM_drains ha hr hq ht)
  · exact iterAvailM_found ha
  · exact iterAvailM_none ha
  · exact fun f q => iterAvailM_drains ha

/-- Settles O22, by each case of the flush's iteration on the emptied queue. -/
theorem matcherResetDropsQueueAndBacklog : Obligations.MatcherResetDropsQueueAndBacklog := by
  intro s
  refine ⟨?_, ?_, ?_⟩
  · exact fun ho hf => exec_mReset_iterates (iterMReset_flushes ho hf)
  · exact fun ho ha ht => exec_mReset_iterates (iterMReset_silent ho ha ht)
  · exact fun f q ho ha hr ht => exec_mReset_iterates (iterMReset_discards ho ha hr ht)

/-! ### The environment's moves in a run -/

/-- The frames that arrive with the environment's next move (R59). -/
def State.arriving (s : State) : List Frame := (s.ticks.take 1).flatMap Tick.arrivals

theorem advance_tq (s : State) : s.advance.tq = s.tq ++ s.arriving := by
  rcases advance_cases s with ⟨ht, h⟩ | ⟨k, ts, ht, h⟩ <;> simp [h, ht, State.arriving]

theorem advance_tq_of_no_arrivals {s : State} (h : ∀ k ∈ s.ticks.take 1, k.arrivals = []) : s.advance.tq = s.tq := by
  rw [advance_tq, State.arriving, List.flatMap_eq_nil_iff.mpr h, List.append_nil]

/-- The environment's moves of the next `n + 1` steps are that of the first step and those of the others. -/
theorem take_ticks_succ (n : Nat) (s : State) :
    s.ticks.take (n + 1) = s.ticks.take 1 ++ s.advance.ticks.take n := by
  rcases advance_cases s with ⟨ht, h⟩ | ⟨k, ts, ht, h⟩ <;> simp [h, ht]

theorem arrivals_succ (n : Nat) (s : State) : (s.ticks.take (n + 1)).flatMap Tick.arrivals =
    s.arriving ++ (s.advance.ticks.take n).flatMap Tick.arrivals := by
  rw [take_ticks_succ, List.flatMap_append, State.arriving]

theorem forall_ticks_succ {P : Tick → Prop} {n : Nat} {s : State} : (∀ k ∈ s.ticks.take (n + 1), P k) ↔
    (∀ k ∈ s.ticks.take 1, P k) ∧ ∀ k ∈ s.advance.ticks.take n, P k := by
  rw [take_ticks_succ, List.forall_mem_append]

theorem calm_quiet : Link.quiet.calm := ⟨rfl, rfl, rfl, rfl, rfl⟩

/-- A step whose move is calm, or that finds no move left, sees calm inputs. -/
theorem calm_advance {s : State} (h : ∀ k ∈ s.ticks.take 1, k.link.calm) : s.advance.link.calm := by
  rcases advance_cases s with ⟨-, e⟩ | ⟨k, ts, ht, e⟩
  · rw [e]; exact calm_quiet
  · rw [e]; exact h k (by simp [ht])

/-! ### `MRESET` to its end (R157) -/

section MResetRun

variable {s : State} (hop : s.op = some .mReset) (ho : s.params.offersFlush = false)
  (hnow : ∀ k ∈ s.ticks.take 1, k.arrivals = [] ∧ k.link.calm)
include hop ho hnow

theorem step_mReset_ends (ht : s.tq = []) : step s = .next (respond Response.ok s.advance) := by
  obtain ⟨-, ha, -, -, hreset⟩ := calm_advance fun k hk => (hnow k hk).2
  have ht' : s.advance.tq = [] := (advance_tq_of_no_arrivals fun k hk => (hnow k hk).1).trans ht
  rw [step_busy hop hreset, iterate, iterMReset_silent (by simpa) ha ht']

theorem step_mReset_discards {f : Frame} {q : List Frame} (ht : s.tq = f :: q) :
    step s = .next { s.advance with tq := q } := by
  obtain ⟨hr, ha, -, -, hreset⟩ := calm_advance fun k hk => (hnow k hk).2
  have ht' : s.advance.tq = f :: q := (advance_tq_of_no_arrivals fun k hk => (hnow k hk).1).trans ht
  rw [step_busy hop hreset, iterate, iterMReset_discards (by simpa) ha hr ht']

end MResetRun

/-- Settles O23, by induction on the backlog: each step discards its head, and the last one finds it empty. -/
theorem matcherResetRunsToEmptyBacklog : Obligations.MatcherResetRunsToEmptyBacklog := by
  intro s hop hpq ho hticks
  generalize ht : s.tq = q at hticks ⊢
  induction q generalizing s with
  | nil =>
    have empty : s.advance.tq = [] := (advance_tq_of_no_arrivals fun k hk => (hticks k hk).1).trans ht
    exact ⟨_, run_next 0 (step_mReset_ends hop ho hticks ht), by simp [hpq, empty]⟩
  | cons f q ih =>
    obtain ⟨now, later⟩ := forall_ticks_succ.mp hticks
    rw [List.length_cons, run_next _ (step_mReset_discards hop ho now ht)]
    simpa using ih { s.advance with tq := q } (by simpa) (by simpa) (by simpa) rfl later

/-! ### `READM` to its end (R159) -/

section ReadMRun

variable {s : State} {f : Frame} {q : List Frame} (hop : s.op = some .readM) (hd : s.params.pqDepth = none)
  (hnow : ∀ k ∈ s.ticks.take 1, k.link.calm) (ht : s.tq = f :: q)
include hop hd hnow ht

theorem step_readM_returns (hm : f.id &&& s.opMask = s.opId &&& s.opMask) :
    step s = .next (respondFound f.canon { s.advance with tq := q ++ s.arriving }) := by
  obtain ⟨hr, -, -, -, hreset⟩ := calm_advance hnow
  have hq : s.advance.queueFull = false := queueFull_of_unbounded (by simpa)
  have ht' : s.advance.tq = f :: (q ++ s.arriving) := by rw [advance_tq, ht, List.cons_append]
  rw [step_busy hop hreset, iterate, iterReadM_match hq hr ht' (by simpa)]

theorem step_readM_queues (hm : f.id &&& s.opMask ≠ s.opId &&& s.opMask) :
    step s = .next (State.enqueue f.canon { s.advance with tq := q ++ s.arriving }) := by
  obtain ⟨hr, -, -, -, hreset⟩ := calm_advance hnow
  have hq : s.advance.queueFull = false := queueFull_of_unbounded (by simpa)
  have ht' : s.advance.tq = f :: (q ++ s.arriving) := by rw [advance_tq, ht, List.cons_append]
  rw [step_busy hop hreset, iterate, iterReadM_miss hq hr ht' (by simpa)]
  rfl

end ReadMRun

/-- Settles O24, by induction on the frames before the match: each step queues one of them, and the last one
returns the match. What arrives with a step stands behind the backlog, and so behind the match. -/
theorem untimedReadReturnsEarliestMatch : Obligations.UntimedReadReturnsEarliestMatch := by
  intro before after f s hop hd ht hbefore hf hticks
  induction before generalizing s after with
  | nil => exact ⟨_, run_next 0 (step_readM_returns hop hd hticks ht hf), by simp [State.arriving]⟩
  | cons g before ih =>
    obtain ⟨now, later⟩ := forall_ticks_succ.mp hticks
    obtain ⟨hg, hbefore⟩ := List.forall_mem_cons.mp hbefore
    have queues := step_readM_queues hop hd now ht (isMatch_eq_false_iff.mp hg)
    rw [List.length_cons, run_next _ queues, arrivals_succ]
    simpa using ih (after ++ s.arriving)
      (State.enqueue g.canon { s.advance with tq := before ++ f :: after ++ s.arriving })
      (by simpa) (by simpa) (by simp) (by simpa) (by simpa) later

end Sys2Proof.Machine

/-! SUPPORT. The transport port (R177): what `SENDF` hands over and when it answers an error instead, alone and as
the last line of a responder's sequence. -/

namespace Sys2Proof.Machine

/-! ### `SENDF` and the frame it hands over -/

theorem exec_sendF (id : Ident) (len : BitVec 4) (s : State) : exec (.sendF id len) s = .next (sendOp id len.toNat s) :=
  rfl

theorem sendOp_sends {id : Ident} {len : Nat} {s : State} (hlen : len ≤ bufBytes) (hw : s.link.writeFails = false) :
    sendOp id len s = respond Response.ok { s with sent := s.sent ++ [sentFrame id len s] } := by
  rcases sendOp_cases id len s with ⟨hbig, -⟩ | ⟨-, hw', -⟩ | ⟨-, -, h⟩
  · exact absurd hlen hbig.not_ge
  · simp [hw] at hw'
  · exact h

theorem sendOp_tooLong {id : Ident} {len : Nat} {s : State} (h : bufBytes < len) :
    sendOp id len s = raise .outOfRange s := if_pos h

theorem sentFrame_len {id : Ident} {len : Nat} {s : State} (hlen : len ≤ bufBytes) :
    (sentFrame id len s).len.val = len := Nat.mod_eq_of_lt (Nat.lt_succ_of_le hlen)

/-- The buffer's bytes at `len` and above do not reach the transport (R11, R177). -/
theorem byteOf_sentFrame {id : Ident} {len k : Nat} {s : State} (hlen : len ≤ bufBytes) (hk : k < 8) :
    byteOf (sentFrame id len s).data k = if k < len then s.buf.read k else 0 := by
  change byteOf (maskBytes (sentFrame id len s).len.val (Memory.readN s.buf 0 bufBytes)) k = _
  rw [sentFrame_len hlen, byteOf_maskBytes, byteOf_wholeBuffer s.buf hk]

/-- Settles O27: a length the buffer holds leaves the two outcomes of the transport's write, of which the failing
one is `transportFailureEndsOperation`'s. -/
theorem sendHandsOverBufferBytes : Obligations.SendHandsOverBufferBytes := by
  obtain ⟨-, -, -, -, -, -, -, -, -, -, -, -, -, -, -, -, -, -, -, -, -, -, hsend⟩ := commandWordDecodesByOpcode
  obtain ⟨-, -, -, hfail⟩ := transportFailureEndsOperation
  refine ⟨hsend, fun id len s => ⟨fun hlen hw => ?sent, fun hlen hw => hfail id len s hw hlen, fun hlen => ?tooLong⟩⟩
  case sent =>
    rw [exec_sendF, sendOp_sends hlen hw]
    exact ⟨_, rfl, rfl, sentFrame_len hlen, fun _ hk => byteOf_sentFrame hlen hk⟩
  case tooLong =>
    rw [exec_sendF, sendOp_tooLong hlen]
    rfl

/-! ### A reply that cannot be written -/

/-- The state in which a responder does the last line of serving a request, the `SENDF` of its reply: the reply in
the buffer, the handler called (R235, R236). `rs` and `vs` are the responses and the names of the lines before. -/
def replyReady (n : Nat) (c : CmdId) (e : Envelope) (rs : List Response) (vs : Vars) (s : State) : State :=
  State.withEnv (s.advances n) { s with
    buf := floatBuffer ((cmdCode c ++ e.seq).setWidth 32) ((e.target ++ e.flags).setWidth 32)
      (replyValueOf c s.handlerReturns)
    cur := 6, op := none, rsp := rs, plan := [], waiting := false
    calls := s.calls ++ (handlerCallOf c e).toList
    handlerReturns := if c = .ping then s.handlerReturns else s.handlerReturns.tail
    vars := vs }

theorem replyReady_link {c : CmdId} {n : Nat} (hn : ServeLines c n) (e : Envelope) (rs : List Response) (vs : Vars)
    (s : State) : (replyReady n c e rs vs s).link = s.linkAt (n - 1) := by
  obtain ⟨m, rfl⟩ : ∃ m, n = m + 1 := by
    obtain ⟨-, rfl⟩ | ⟨-, rfl⟩ := hn <;> exact ⟨_, rfl⟩
  exact advances_link m s

/-- A responder that in its last line writes the response port and its results, and has no line left, has touched
only what a sequence may. -/
theorem sequenceFrame_replyReady (n : Nat) (c : CmdId) (e : Envelope) (rs rs' : List Response) (vs : Vars)
    (results : List HostResult) (s : State) : SequenceFrame n s { replyReady n c e rs vs s with
      op := none, rsp := rs', results := results, waiting := false, plan := [] } := by
  rw [SequenceFrame, advances_eq_withEnv]
  rfl

/-- Settles O50: every served command comes to the `SENDF` of its reply with the reply in the buffer (`run_exec`),
and that line ends the sequence with the error when the write fails (`sendF_reply`). -/
theorem failedReplyEndsWithTransportError : Obligations.FailedReplyEndsWithTransportError := by
  intro i c e n s henv hc hwf hrole hn hres hfails
  obtain ⟨t, rs, vs, hexec, hid, hrun⟩ := run_exec henv hc hwf hrole hn hres
  have hw : (replyReady n c e rs vs s).link.writeFails = true := by rw [replyReady_link hn, hfails]
  obtain ⟨hbuf, ⟨hw', -⟩ | ⟨-, hline⟩⟩ := sendF_reply (replyReady n c e rs vs s) rfl rfl rfl hid
  · simp [hw] at hw'
  · exact ⟨t, _, hexec, hrun.trans (congrArg Host.Outcome.next hline), rfl, rfl, rfl, rfl, rfl, hbuf, rfl,
      sequenceFrame_replyReady ..⟩

end Sys2Proof.Machine

/-! SUPPORT. The command frames (R191 to R206): the request that a master sends, the reply that a responder sends to
it, and what a master or a listener reads of a frame. The runs of the sequences stand in Laws/Sequences.lean; here
are the last line of each, the fields of the frames, and what the whole run leaves. -/

namespace Sys2Proof.Machine

/-! ### A request answered (R192, R235) -/

/-- What a responder that has answered a request leaves: the reply sent and still in the buffer, and the handler
called (R192, R235, R236). -/
structure Answered (n : Nat) (c : CmdId) (e : Envelope) (s u : State) : Prop where
  sent : u.sent = s.sent ++
    [replyFrame (sourceOf s.response.frame.id) s.params.self c e (replyValueOf c s.handlerReturns)]
  calls : u.calls = s.calls ++ (handlerCallOf c e).toList
  handlerReturns : u.handlerReturns = if c = .ping then s.handlerReturns else s.handlerReturns.tail
  results : u.results = s.results
  buf : ∀ k, k < 8 → u.buf.read k = byteOf (replyFrame (sourceOf s.response.frame.id) s.params.self c e
    (replyValueOf c s.handlerReturns)).data k
  cur : u.cur = 6
  frame : SequenceFrame n s u

/-- Every served command comes to the `SENDF` of its reply with the reply in the buffer (`run_exec`), and that line
sends it (`sendF_reply`). -/
theorem exec_answered {i : Instr} {c : CmdId} {e : Envelope} {n : Nat} {s : State} (henv : envelope? i = some (c, e))
    (hc : c ≠ .broadcastDatapoint) (hwf : WellFormed i = true) (hrole : s.role = .request) (hn : ServeLines c n)
    (hres : NoReset n s) (hsends : (s.linkAt (n - 1)).writeFails = false) :
    ∃ t u, exec i s = .next t ∧ Host.Core.run core n t = .next u ∧ Answered n c e s u := by
  obtain ⟨t, rs, vs, hexec, hid, hrun⟩ := run_exec henv hc hwf hrole hn hres
  have hw : (replyReady n c e rs vs s).link.writeFails = false := by rw [replyReady_link hn, hsends]
  obtain ⟨hbuf, ⟨-, hline⟩ | ⟨hw', -⟩⟩ := sendF_reply (replyReady n c e rs vs s) rfl rfl rfl hid
  · refine ⟨t, _, hexec, hrun.trans (congrArg Host.Outcome.next hline), rfl, rfl, rfl, rfl, hbuf, rfl, ?frame⟩
    rw [SequenceFrame, replyReady, advances_eq_withEnv]
    rfl
  · simp [hw] at hw'

theorem Answered.calls_of_handler {n : Nat} {c : CmdId} {e : Envelope} {s u : State} {h : HandlerCall}
    (ans : Answered n c e s u) (hcall : handlerCallOf c e = some h) : u.calls = s.calls ++ [h] := by
  rw [ans.calls, hcall]
  rfl

/-- Every command but Ping has a handler slot, whose call uses up an entry. -/
theorem Answered.handlerReturns_of_handler {n : Nat} {c : CmdId} {e : Envelope} {s u : State}
    (ans : Answered n c e s u) (hping : c ≠ .ping) : u.handlerReturns = s.handlerReturns.tail := by
  rw [ans.handlerReturns, if_neg hping]

/-- Settles O46: a control command has a handler that returns no value, so its reply carries zero. -/
theorem controlRequestAnsweredWithZeroFloat : Obligations.ControlRequestAnsweredWithZeroFloat := by
  intro i c e s henv hctl hwf hrole hres hsends
  obtain ⟨hlines, hbc, hping, hvalue, h, hcall⟩ : ServeLines c 13 ∧ c ≠ .broadcastDatapoint ∧ c ≠ .ping ∧
      replyValueOf c s.handlerReturns = 0 ∧ ∃ h, handlerCallOf c e = some h := by
    simp only [List.mem_cons, List.not_mem_nil, or_false] at hctl
    rcases hctl with rfl | rfl | rfl <;> exact ⟨.inr ⟨nofun, rfl⟩, nofun, nofun, rfl, _, rfl⟩
  obtain ⟨t, u, hexec, hrun, ans⟩ := exec_answered henv hbc hwf hrole hlines hres hsends
  rw [← hvalue]
  exact ⟨t, u, h, hexec, hrun, hcall, ans.sent, ans.calls_of_handler hcall, ans.handlerReturns_of_handler hping,
    ans.results, ans.buf, ans.cur, ans.frame⟩

/-- The value of the next handler call is the first entry left, zero where there is none (R192, R236). -/
theorem nextReturn_eq_head (s : State) :
    s.nextReturn = match s.handlerReturns.head? with | some (some v) => v | _ => 0 := by
  unfold State.nextReturn
  rcases s.handlerReturns with _ | ⟨_ | v, l⟩ <;> rfl

/-- Settles O47: the reply carries the first entry of `handlerReturns`, zero where there is none. -/
theorem valueRequestAnsweredWithHandlerValue : Obligations.ValueRequestAnsweredWithHandlerValue := by
  intro i c e n s henv hval hwf hrole hlines hres hsends
  obtain ⟨hbc, hping, hvalue, h, hcall⟩ : c ≠ .broadcastDatapoint ∧ c ≠ .ping ∧
      replyValueOf c s.handlerReturns = (match s.handlerReturns.head? with | some (some v) => v | _ => 0) ∧
      ∃ h, handlerCallOf c e = some h := by
    simp only [List.mem_cons, List.not_mem_nil, or_false] at hval
    rcases hval with rfl | rfl | rfl | rfl | rfl <;> exact ⟨nofun, nofun, nextReturn_eq_head s, _, rfl⟩
  obtain ⟨t, u, hexec, hrun, ans⟩ := exec_answered henv hbc hwf hrole hlines hres hsends
  exact ⟨t, u, h, _, hexec, hrun, hcall, hvalue, ans.sent, ans.calls_of_handler hcall,
    ans.handlerReturns_of_handler hping, ans.results, ans.buf, ans.cur, ans.frame⟩

/-- The float slot of a reply. -/
theorem byteOf_replyFrame_float (r self : BitVec 6) (c : CmdId) (e : Envelope) (q : Word32) {k : Nat} (hk : k < 4) :
    byteOf (replyFrame r self c e q).data (2 + k) = byteOf (floatOperand q) k := by
  rw [replyFrame_data, byteOf_envelopePayload, if_neg (by omega), if_neg (by omega), if_pos (by omega),
    Nat.add_sub_cancel_left]

/-- Settles O48: Ping has no handler slot, and the bytes of its float are the pattern's. -/
theorem pingAnsweredWithPong : Obligations.PingAnsweredWithPong := by
  intro e s hwf hrole hres hsends
  obtain ⟨t, u, hexec, hrun, ans⟩ :=
    exec_answered (i := .ping e) rfl nofun hwf hrole (.inr ⟨nofun, rfl⟩) hres hsends
  have pong : ∀ k, k < 4 → u.buf.read (2 + k) = byteOf (floatOperand 0x474E4F50) k := fun k hk =>
    (ans.buf (2 + k) (by omega)).trans (byteOf_replyFrame_float _ _ _ _ _ hk)
  exact ⟨t, u, hexec, hrun, ans.sent, ans.calls.trans (List.append_nil _), ans.handlerReturns, ans.results,
    pong 0 (by decide), pong 1 (by decide), pong 2 (by decide), pong 3 (by decide), ans.cur, ans.frame⟩

/-! ### A frame read (R205, R206, R225) -/

/-- What a host leaves that took up the frame `f`, sent and called nothing, and reported `rs`: the frame in the
buffer, read up to the byte `cur`. -/
structure FrameRead (n : Nat) (f : Frame) (cur : BitVec 4) (rs : List HostResult) (s u : State) : Prop where
  results : u.results = s.results ++ rs
  sent : u.sent = s.sent
  calls : u.calls = s.calls
  handlerReturns : u.handlerReturns = s.handlerReturns
  buf : u.buf = frameBuffer f.len f.data
  cur : u.cur = cur
  frame : SequenceFrame n s u

/-- The state that a run leaves which changed the buffer, the cursor, the response port, the names and the results,
and the environment (`run_drop`, `run_control`, `run_read`). -/
theorem frameRead_withEnv (n : Nat) (f : Frame) (cur : BitVec 4) (rs : List HostResult) (rsp : List Response)
    (vs : Vars) (s : State) : FrameRead n f cur rs s (State.withEnv (s.advances n) { s with
      buf := frameBuffer f.len f.data, cur := cur, op := none, rsp := rsp, plan := [], waiting := false, vars := vs
      results := s.results ++ rs }) where
  results := rfl
  sent := rfl
  calls := rfl
  handlerReturns := rfl
  buf := rfl
  cur := rfl
  frame := by
    rw [SequenceFrame, advances_eq_withEnv]
    rfl

/-- The step before a sequence adds a move of the environment only. -/
theorem FrameRead.of_advance {n : Nat} {f : Frame} {cur : BitVec 4} {rs : List HostResult} {s u : State}
    (h : FrameRead n f cur rs s.advance u) : FrameRead (n + 1) f cur rs s u where
  results := by rw [h.results, advance_results]
  sent := by rw [h.sent, advance_sent]
  calls := by rw [h.calls, advance_calls]
  handlerReturns := by rw [h.handlerReturns, advance_handlerReturns]
  buf := h.buf
  cur := h.cur
  frame := h.frame

theorem FrameRead.holdsBytes {n : Nat} {f : Frame} {cur : BitVec 4} {rs : List HostResult} {s u : State}
    (h : FrameRead n f cur rs s u) : HoldsBytes f u.buf := by
  rw [h.buf]
  exact holdsBytes_frameBuffer f

/-- The buffer of a well-formed envelope reads as its payload: the bytes beyond its length are zero (R11). -/
theorem read_frameBuffer_envelope {c : CmdId} {e : Envelope} (he : e.wellFormed c = true) (k : Nat) :
    (frameBuffer e.len (envelopeData (cmdCode c) e)).read k = byteOf (envelopeData (cmdCode c) e) k := by
  rw [Envelope.wellFormed, beq_iff_eq] at he
  rw [read_frameBuffer _ _ (by omega), he]

/-- Byte1 of a well-formed envelope in the buffer (R84). -/
theorem read_one_envelope {c : CmdId} {e : Envelope} (he : e.wellFormed c = true) :
    (frameBuffer e.len (envelopeData (cmdCode c) e)).read 1 = e.target ++ e.flags := by
  rw [read_frameBuffer_envelope he, byteOf_one_envelopeData]

/-- The float of a well-formed envelope in the buffer (R84). -/
theorem floatIn_envelope {c : CmdId} {e : Envelope} (he : e.wellFormed c = true) :
    floatIn (frameBuffer e.len (envelopeData (cmdCode c) e)) = e.value := by
  rw [Envelope.wellFormed, beq_iff_eq] at he
  exact (floatIn_frameBuffer { id := 0, len := e.len, data := envelopeData (cmdCode c) e }).trans
    ((congrArg _ he).trans (float_envelopeData _ _))

theorem FrameRead.read_envelope {n : Nat} {id : Ident} {c : CmdId} {e : Envelope} {cur : BitVec 4}
    {rs : List HostResult} {s u : State}
    (h : FrameRead n { id := id, len := e.len, data := envelopeData (cmdCode c) e } cur rs s u)
    (he : e.wellFormed c = true) (k : Nat) (_ : k < 8) : u.buf.read k = byteOf (envelopeData (cmdCode c) e) k := by
  rw [h.buf]
  exact read_frameBuffer_envelope he k

/-! ### The results that a master or a listener reports (R193, R221) -/

/-- A result by byte1 and the float of the frame read (R193, R221, R226). -/
def Report.ofBytes (k : Report) (b1 : Byte) (p : Word32) : HostResult :=
  match k with
  | .control => .control (!b1.getLsbD 3)
  | .motor => .motor (b1.getLsbD 3) (b1.getLsbD 2) (b1.extractLsb' 4 4) p
  | .datapoint => .datapoint (b1.extractLsb' 4 4) (b1.extractLsb' 0 4) p
  | .alive => .alive true

theorem getLsbD_lowNibble (b : Byte) {i : Nat} (hi : i < 4) : (lowNibble b).getLsbD i = b.getLsbD i := by
  simp [lowNibble, hi]

/-- A control result looks at the flags only. -/
theorem result_control {b1 : Byte} (p : Word32) {v : Vars} (hf : v.flags = (lowNibble b1).setWidth 32) :
    Report.control.result v = Report.control.ofBytes b1 p := by
  simp only [Report.result, Report.ofBytes, hf, nibble_roundtrip, errorFlag]
  rw [getLsbD_lowNibble b1 (by decide)]

theorem result_ofBytes (k : Report) {b1 : Byte} {v : Vars} (hf : v.flags = (lowNibble b1).setWidth 32)
    (ht : v.target = (highNibble b1).setWidth 32) : k.result v = k.ofBytes b1 v.p := by
  cases k
  case control => exact result_control _ hf
  case motor =>
    simp only [Report.result, Report.ofBytes, hf, ht, nibble_roundtrip, errorFlag, uncalibratedFlag]
    rw [getLsbD_lowNibble b1 (by decide), getLsbD_lowNibble b1 (by decide)]
    rfl
  case datapoint =>
    simp only [Report.result, Report.ofBytes, hf, ht, nibble_roundtrip]
    rfl
  case alive => rfl

/-- A result by the fields of an envelope: the flags are the low nibble of byte1 (R84, R193). -/
theorem ofBytes_append (k : Report) (target flags : Nibble) (p : Word32) :
    k.ofBytes (target ++ flags) p =
      match k with
      | .control => .control (!flags.getLsbD 3)
      | .motor => .motor (flags.getLsbD 3) (flags.getLsbD 2) target p
      | .datapoint => .datapoint target flags p
      | .alive => .alive true := by
  have flag : ∀ i, i < 4 → (target ++ flags).getLsbD i = flags.getLsbD i := fun i hi => by
    rw [BitVec.getLsbD_append, if_pos hi]
  cases k
  case control => simp only [Report.ofBytes, flag 3 (by decide)]
  case motor =>
    simp only [Report.ofBytes, flag 3 (by decide), flag 2 (by decide)]
    exact congrArg (HostResult.motor _ _ · p) (highNibble_append target flags)
  case datapoint => exact congrArg₂ (HostResult.datapoint · · p) (highNibble_append _ _) (lowNibble_append _ _)
  case alive => rfl

/-- The result that a master reports of a reply with a float (R197 to R203, R221). -/
def valueReport (c : CmdId) : Report := if c = .requestDatapoint then .datapoint else .motor

/-! ### What each role reads of a frame it has taken up -/

section Received

variable {serve : List HostOp} {len : Fin 9} {data : Payload} {s : State}

/-- The frame that a host takes up: the identifier of the response in hand with the frame's payload. -/
abbrev State.inHand (len : Fin 9) (data : Payload) (s : State) : Frame :=
  { id := s.response.frame.id, len := len, data := data }

/-- A responder drops a frame whose command has no handler (R205, R235). -/
theorem receive_dropped (hrole : s.role = .request) (hres : NoReset 6 s) :
    ∃ u, Host.Core.run core 6 (receive dropPlan len data s) = .next u ∧
      FrameRead 6 (s.inHand len data) 2 [] s u := by
  obtain ⟨rsp, hrun⟩ := run_drop (s.inHand len data) hres
  have read := frameRead_withEnv 6 (s.inHand len data) 2 [] rsp (decodedVars false (s.inHand len data) s.vars) s
  rw [List.append_nil] at read
  rw [receive_plan (plan := dropPlan) (by rw [hrole])]
  exact ⟨_, hrun, read⟩

/-- A sequence that reads a frame with its float reports what stands in the buffer (R222, R225). -/
theorem run_reported {mid : List HostOp} (k : Report) (f : Frame)
    (hmid : mid = [.unpackB1, .getFloat] ∨ mid = [.getFloat, .unpackB1]) (hres : NoReset 6 s) :
    ∃ u, Host.Core.run core 6 (startPlan (headerPlan ++ (mid ++ [.report k]))
        { s with waiting := false, vars := { s.vars with f := f } }) = .next u ∧
      FrameRead 6 f 6 [k.ofBytes (u.buf.read 1) (floatIn u.buf)] s u := by
  obtain ⟨rsp, vs, hf, ht, hp, hrun⟩ := run_read (k := k) hmid f hres
  have reported : k.result vs = k.ofBytes ((frameBuffer f.len f.data).read 1) (floatIn (frameBuffer f.len f.data)) := by
    rw [floatIn_frameBuffer, ← hp, read_frameBuffer _ _ (by omega)]
    exact result_ofBytes k hf ht
  refine ⟨_, hrun, ?_⟩
  rw [reported]
  exact frameRead_withEnv 6 f 6 _ rsp vs s

/-- A listener reads stream, channel and float (R202, R225). -/
theorem receive_broadcast (hrole : s.role = .broadcast) (hres : NoReset 6 s) :
    ∃ u, Host.Core.run core 6 (receive serve len data s) = .next u ∧
      FrameRead 6 (s.inHand len data) 6 [Report.datapoint.ofBytes (u.buf.read 1) (floatIn u.buf)] s u := by
  have plan : readBroadcastPlan = headerPlan ++ ([.getFloat, .unpackB1] ++ [.report .datapoint]) := rfl
  rw [receive_plan (plan := readBroadcastPlan) (by rw [hrole]), plan]
  exact run_reported .datapoint _ (.inr rfl) hres

/-- A master reads the flags of the reply to a control command (R195, R196, R199, R221). -/
theorem receive_control {c' : CmdId} (hrole : s.role = .reply c')
    (hc' : c' ∈ [CmdId.eStop, .calibrate, .toggleState]) (hres : NoReset 5 s) :
    ∃ u, Host.Core.run core 5 (receive serve len data s) = .next u ∧
      FrameRead 5 (s.inHand len data) 2 [Report.control.ofBytes (u.buf.read 1) (floatIn u.buf)] s u := by
  have plan : readReplyPlan c' = headerPlan ++ [.unpackB1, .report .control] := by
    simp only [List.mem_cons, List.not_mem_nil, or_false] at hc'
    rcases hc' with rfl | rfl | rfl <;> rfl
  obtain ⟨rsp, vs, hf, hrun⟩ := run_control (s.inHand len data) hres
  rw [receive_plan (plan := readReplyPlan c') (by rw [hrole]), plan]
  refine ⟨_, hrun, ?_⟩
  rw [← read_frameBuffer _ _ (by omega)] at hf
  rw [result_control (floatIn (frameBuffer len data)) hf]
  exact frameRead_withEnv 5 (s.inHand len data) 2 _ rsp vs s

/-- A master reads flags, target and float of the reply to a value command (R197, R198, R200, R201, R203, R221). -/
theorem receive_value {c' : CmdId} (hrole : s.role = .reply c')
    (hc' : c' ∈ [CmdId.setMotorPosition, .setMotorSpeed, .getMotorPosition, .getMotorSpeed, .requestDatapoint])
    (hres : NoReset 6 s) :
    ∃ u, Host.Core.run core 6 (receive serve len data s) = .next u ∧
      FrameRead 6 (s.inHand len data) 6 [(valueReport c').ofBytes (u.buf.read 1) (floatIn u.buf)] s u := by
  have plan : readReplyPlan c' = headerPlan ++ ([.unpackB1, .getFloat] ++ [.report (valueReport c')]) := by
    simp only [List.mem_cons, List.not_mem_nil, or_false] at hc'
    rcases hc' with rfl | rfl | rfl | rfl | rfl <;> rfl
  rw [receive_plan (plan := readReplyPlan c') (by rw [hrole]), plan]
  exact run_reported (valueReport c') _ (.inl rfl) hres

/-- A master that waits for the reply to Ping reports in the step that takes it up, and loads nothing (R204,
R226). -/
theorem receive_ping (hrole : s.role = .reply .ping) : receive serve len data s = { s with
    results := s.results ++ [.alive true], waiting := false, plan := []
    vars := { s.vars with f := s.inHand len data } } := by
  rw [receive_plan (plan := readReplyPlan .ping) (by rw [hrole])]
  rfl

end Received

/-- The step that takes up a frame whose id names no command, and the sequence after it (R205, R206). -/
theorem run_unassigned {n : Nat} {cur : BitVec 4} {s : State} {rs : State → List HostResult} (h : Reads s)
    (hr : s.role ≠ .poll) (hb : s.role ≠ .bringUp) (hf : HoldsUnassigned s)
    (hrun : ∃ u,
      Host.Core.run core n (receive dropPlan s.response.frame.len s.response.frame.data s.advance) = .next u ∧
      FrameRead n (s.advance.inHand s.response.frame.len s.response.frame.data) cur (rs u) s.advance u) :
    ∃ u, Host.Core.run core (n + 1) s = .next u ∧ FrameRead (n + 1) s.response.frame cur (rs u) s u := by
  obtain ⟨u, hu, read⟩ := hrun
  rw [State.inHand, advance_response] at read
  exact ⟨u, (run_next n (step_unassigned h hr hb hf)).trans hu, read.of_advance⟩

theorem exec_broadcastDatapoint (e : Envelope) (s : State) : exec (.broadcastDatapoint e) s =
    .next (receive dropPlan e.len (envelopeData (cmdCode .broadcastDatapoint) e) s) := rfl

/-- Settles O49: a broadcast datapoint, and a frame whose id names no command, have no handler and are dropped
(`receive_dropped`). -/
theorem requestWithoutHandlerIsDropped : Obligations.RequestWithoutHandlerIsDropped := by
  refine ⟨fun e s hwf hrole hres => ?broadcast, fun s hreads hrole hst hhit hid hres => ?unassigned⟩
  case broadcast =>
    have he : e.wellFormed .broadcastDatapoint = true := hwf
    obtain ⟨u, hrun, read⟩ := receive_dropped hrole hres
    exact ⟨_, u, exec_broadcastDatapoint e s, hrun, read.sent, read.calls, read.results.trans (List.append_nil _),
      read.handlerReturns, read.read_envelope he, read.cur, read.frame⟩
  case unassigned =>
    obtain ⟨u, hrun, read⟩ := run_unassigned
      (rs := fun _ => []) hreads (by simp [hrole]) (by simp [hrole]) ⟨hst, hhit, hid⟩
      (receive_dropped (by rw [advance_role, hrole]) hres.tail)
    exact ⟨u, hrun, read.sent, read.calls, read.results.trans (List.append_nil _), read.handlerReturns,
      read.holdsBytes, read.cur, read.frame⟩

/-- Settles O51: the listener's sequence is the same for every frame (`receive_broadcast`). -/
theorem broadcastDecodedByListener : Obligations.BroadcastDecodedByListener := by
  refine ⟨fun i c e s henv hwf hrole hres => ?wire, fun s hreads hrole hf hres => ?unassigned⟩
  case wire =>
    have he := wellFormed_envelope henv hwf
    obtain ⟨serve, hexec⟩ := exec_wire s henv
    obtain ⟨u, hrun, read⟩ := receive_broadcast hrole hres
    have hresults := read.results
    rw [read.buf, read_one_envelope he, floatIn_envelope he, ofBytes_append] at hresults
    exact ⟨_, u, hexec, hrun, hresults, read.sent, read.calls, read.handlerReturns, read.read_envelope he, read.cur,
      read.frame⟩
  case unassigned =>
    obtain ⟨u, hrun, read⟩ := run_unassigned
      (rs := fun u => [Report.datapoint.ofBytes (u.buf.read 1) (floatIn u.buf)])
      hreads (by simp [hrole]) (by simp [hrole]) hf
      (receive_broadcast (by rw [advance_role, hrole]) hres.tail)
    exact ⟨u, hrun, read.results, read.sent, read.calls, read.handlerReturns, read.holdsBytes, read.cur, read.frame⟩

/-- What a master reports of the reply to a value command, by byte1 and the float (R197 to R203, R221). -/
theorem valueReport_ofBytes (c : CmdId) (b1 : Byte) (p : Word32) : (valueReport c).ofBytes b1 p =
    if c = .requestDatapoint then .datapoint (b1.extractLsb' 4 4) (b1.extractLsb' 0 4) p
    else .motor (b1.getLsbD 3) (b1.getLsbD 2) (b1.extractLsb' 4 4) p := by
  unfold valueReport
  split <;> rfl

/-- Settles O52: a master's sequence follows from the command it sent (`receive_control`, `receive_value`,
`receive_ping`), whatever frame it takes up. -/
theorem masterReadsReplyByCommandSent : Obligations.MasterReadsReplyByCommandSent := by
  refine ⟨fun i c c' e s henv hwf hrole => ?wire, fun c' s hreads hrole hf => ⟨?control, ?value, ?ping⟩⟩
  case wire =>
    have he := wellFormed_envelope henv hwf
    obtain ⟨serve, hexec⟩ := exec_wire s henv
    refine ⟨_, hexec, fun hc' hres => ?wireControl, fun hc' hres => ?wireValue, ?wirePing⟩
    case wireControl =>
      obtain ⟨u, hrun, read⟩ := receive_control hrole hc' hres
      have hresults := read.results
      rw [read.buf, read_one_envelope he, ofBytes_append] at hresults
      exact ⟨u, hrun, hresults, read.cur, read.read_envelope he, read.sent, read.calls,
        read.handlerReturns, read.frame⟩
    case wireValue =>
      obtain ⟨u, hrun, read⟩ := receive_value hrole hc' hres
      have hresults := read.results
      rw [read.buf, read_one_envelope he, floatIn_envelope he, valueReport] at hresults
      refine ⟨u, hrun, hresults.trans ?_, read.cur, read.read_envelope he, read.sent, read.calls,
        read.handlerReturns, read.frame⟩
      split <;> rw [ofBytes_append]
    case wirePing =>
      rintro rfl
      rw [receive_ping hrole]
  case control =>
    intro hc' hres
    obtain ⟨u, hrun, read⟩ := run_unassigned
      (rs := fun u => [Report.control.ofBytes (u.buf.read 1) (floatIn u.buf)])
      hreads (by simp [hrole]) (by simp [hrole]) hf
      (receive_control (by rw [advance_role, hrole]) hc' hres.tail)
    exact ⟨u, hrun, read.results, read.cur, read.holdsBytes, read.sent, read.calls, read.handlerReturns, read.frame⟩
  case value =>
    intro hc' hres
    obtain ⟨u, hrun, read⟩ := run_unassigned
      (rs := fun u => [(valueReport c').ofBytes (u.buf.read 1) (floatIn u.buf)])
      hreads (by simp [hrole]) (by simp [hrole]) hf
      (receive_value (by rw [advance_role, hrole]) hc' hres.tail)
    have hresults := read.results
    rw [valueReport_ofBytes] at hresults
    exact ⟨u, hrun, hresults, read.cur, read.holdsBytes, read.sent, read.calls, read.handlerReturns, read.frame⟩
  case ping =>
    rintro rfl
    refine ⟨_, step_unassigned hreads (by simp [hrole]) (by simp [hrole]) hf, ?_⟩
    rw [receive_ping (by rw [advance_role, hrole]), advance_results]

/-! ### A frame that a host sends of its own accord (R191, R222, R239) -/

/-- Byte1 of a broadcast is stream and channel side by side (R239). -/
theorem envelopePayload_packNibbles (b0 : Byte) (a b : BitVec 16) (v : Word32) :
    envelopePayload b0 (packNibbles a b) v =
      (0 : BitVec 16) ++ v ++ a.extractLsb' 0 4 ++ b.extractLsb' 0 4 ++ b0 :=
  congrArg (fun x : BitVec 56 => x ++ b0) (BitVec.append_assoc (x₁ := (0 : BitVec 16) ++ v)
    (x₂ := a.extractLsb' 0 4) (x₃ := b.extractLsb' 0 4)).symm

/-- The last line of a sequence whose write succeeds (R174, R177). -/
theorem hostOp_sendF_sends {len : BitVec 4} {s : State} (hlen : len.toNat ≤ 8) (hw : s.link.writeFails = false) :
    hostOp (.sendF len) s = { s with
      op := none, rsp := Response.ok :: s.rsp
      sent := s.sent ++ [sentFrame (s.vars.id.setWidth 12) len.toNat s] } := by
  obtain ⟨-, hline⟩ | ⟨hw', -⟩ := hostOp_sendF_cases hlen s
  · exact hline
  · simp [hw] at hw'

/-- An identifier comes whole out of the response word that carries it (R80, R88). -/
theorem ident_roundtrip (id : Ident) : (id.setWidth 32).setWidth 12 = id := by
  apply BitVec.eq_of_getLsbD_eq
  intro i hi
  simp [hi]

/-- The state in which a host does the last line of sending a broadcast datapoint, its `SENDF` (R239). `rs` and `vs`
are the responses and the names of the lines before. -/
def broadcastReady (st ch : BitVec 16) (v : Word32) (rest : List HostAct) (rs : List Response) (vs : Vars)
    (s : State) : State :=
  State.withEnv (s.advances 8) { s with
    buf := floatBuffer ((packNibbles 7 0).setWidth 32) ((packNibbles st ch).setWidth 32) v, cur := 6
    op := none, rsp := rs, plan := [], script := rest, vars := vs }

/-- Settles O58: the eighth line of the sequence sends the six bytes that the seven before it built
(`run_broadcast`, `sentFrame_float`). -/
theorem broadcastFrameSent : Obligations.BroadcastFrameSent := by
  intro st ch v rest s hacts hres hsends
  obtain ⟨rs, vs, hid, hrun⟩ := run_broadcast hacts hres
  have hw : (broadcastReady st ch v rest rs vs s).link.writeFails = false :=
    (congrArg Link.writeFails (advances_link 7 s)).trans hsends
  have hframe : sentFrame (vs.id.setWidth 12) 6 (broadcastReady st ch v rest rs vs s) =
      { id := (0x3F : BitVec 6) ++ s.params.self, len := 6
        data := (0 : BitVec 16) ++ v ++ st.extractLsb' 0 4 ++ ch.extractLsb' 0 4 ++ (0x70 : BitVec 8) } := by
    rw [sentFrame_float rfl, hid, State.selfOperand, packIdent_address, byte_roundtrip, byte_roundtrip,
      envelopePayload_packNibbles]
    rfl
  refine ⟨_, hrun.trans (congrArg Host.Outcome.next (hostOp_sendF_sends (by decide) hw)),
    congrArg (fun f => s.sent ++ [f]) hframe, ?_⟩
  rw [advances_eq_withEnv]
  rfl

theorem carriesFloat_eq_true {c : CmdId} : carriesFloat c = true ↔ c = .setMotorPosition ∨ c = .setMotorSpeed := by
  cases c <;> decide

/-- The frame of a master's request (R191). -/
def requestFrame (c : CmdId) (d t g : BitVec 16) (v : Word32) (s : State) : Frame where
  id := packIdent d s.selfOperand
  len := if carriesFloat c then 6 else 2
  data := envelopePayload (packNibbles ((cmdCode c).setWidth 16) (s.seq.setWidth 16))
    (packNibbles (requestTarget c t) (requestFlags c g)) (if carriesFloat c then v else 0)

/-- The state in which a master does the `SENDF` of its request, the `n`-th line (R222). `rs` and `vs` are the
responses and the names of the lines before. -/
def requestReady (n : Nat) (c : CmdId) (d t g : BitVec 16) (v : Word32) (rest : List HostAct) (rs : List Response)
    (vs : Vars) (s : State) : State :=
  State.withEnv (s.advances n) { s with
    buf := if carriesFloat c then floatBuffer
        ((packNibbles ((cmdCode c).setWidth 16) (s.seq.setWidth 16)).setWidth 32)
        ((packNibbles (requestTarget c t) (requestFlags c g)).setWidth 32) v
      else headerBuffer ((packNibbles ((cmdCode c).setWidth 16) (s.seq.setWidth 16)).setWidth 32)
        ((packNibbles (requestTarget c t) (requestFlags c g)).setWidth 32)
    cur := if carriesFloat c then 6 else 2, op := none, rsp := rs, seq := s.seq + 1
    plan := [.packFrom d, .awaitReply c], script := rest, vars := vs }

/-- The request is sent with its float or, where it has none, as the header alone (R191). -/
theorem sentFrame_requestReady (n : Nat) (c : CmdId) (d t g : BitVec 16) (v : Word32) (rest : List HostAct)
    (rs : List Response) {vs : Vars} {s : State} (hid : vs.id = (packIdent d s.selfOperand).setWidth 32) :
    sentFrame (vs.id.setWidth 12) (requestLen c).toNat (requestReady n c d t g v rest rs vs s) =
      requestFrame c d t g v s := by
  rw [hid, ident_roundtrip, requestFrame, requestLen, ← byte_roundtrip (packNibbles _ (s.seq.setWidth 16)),
    ← byte_roundtrip (packNibbles (requestTarget c t) _)]
  cases hf : carriesFloat c
  · exact sentFrame_header (by rw [requestReady, hf]; rfl) _
  · exact sentFrame_float (by rw [requestReady, hf]; rfl) _

theorem float_envelopePayload (b0 b1 : Byte) (q : Word32) : (envelopePayload b0 b1 q).extractLsb' 16 32 = q := by
  apply BitVec.eq_of_getLsbD_eq
  intro i hi
  simp only [envelopePayload, BitVec.getLsbD_extractLsb', BitVec.getLsbD_append]
  simp [hi, show ¬ 16 + i < 8 by omega, show ¬ 16 + i - 8 < 8 by omega, show 16 + i - 8 - 8 = i by omega]

theorem tail_envelopePayload (b0 b1 : Byte) (q : Word32) : (envelopePayload b0 b1 q).extractLsb' 48 16 = 0 := by
  apply BitVec.eq_of_getLsbD_eq
  intro i hi
  simp only [envelopePayload, BitVec.getLsbD_extractLsb', BitVec.getLsbD_append]
  simp [show ¬ 48 + i < 8 by omega, show ¬ 48 + i - 8 < 8 by omega, show ¬ 48 + i - 8 - 8 < 32 by omega]

/-- The digit that a request's target operand gives (R191, R195, R204). -/
theorem requestTarget_digit (c : CmdId) (t : BitVec 16) :
    (requestTarget c t).toNat % 16 = if c = .eStop ∨ c = .ping then 0 else t.toNat % 16 := by
  cases c <;> rfl

/-- The digit that a request's flags operand gives (R193, R199, R203). -/
theorem requestFlags_digit {c : CmdId} (hc : c ≠ .broadcastDatapoint) (g : BitVec 16) :
    (requestFlags c g).toNat % 16 =
      if c = .toggleState then g.toNat % 2 else if c = .requestDatapoint then g.toNat % 16 else 0 := by
  cases c
  case broadcastDatapoint => exact absurd rfl hc
  case toggleState =>
    change ((g.extractLsb' 0 1).setWidth 16).toNat % 16 = g.toNat % 2
    rw [BitVec.toNat_setWidth, BitVec.extractLsb'_toNat, Nat.shiftRight_zero]
    omega
  all_goals rfl

/-- Byte0 of a request: the command id and `SEQ` (R191, R220). -/
theorem toNat_packNibbles_setWidth (a b : Nibble) :
    (packNibbles (a.setWidth 16) (b.setWidth 16)).toNat = a.toNat * 16 + b.toNat := by
  have joined := toNat_lowBits_append (a.setWidth 16) (b.setWidth 16) 4
  have ha := a.isLt
  have hb := b.isLt
  simp only [BitVec.toNat_setWidth] at joined
  rw [packNibbles, joined]
  omega

/-- The identifier of a request (R140, R222). -/
theorem toNat_packIdent_self (d : BitVec 16) (s : State) :
    (packIdent d s.selfOperand).toNat = d.toNat % 64 * 64 + s.params.self.toNat := by
  have joined := toNat_lowBits_append d s.selfOperand 6
  have self := s.params.self.isLt
  simp only [State.selfOperand, BitVec.toNat_setWidth] at joined
  rw [packIdent, State.selfOperand, joined]
  omega

/-- Byte1 of a request (R191, R193). -/
theorem toNat_requestByte1 {c : CmdId} (hc : c ≠ .broadcastDatapoint) (t g : BitVec 16) :
    (packNibbles (requestTarget c t) (requestFlags c g)).toNat =
      (if c = .eStop ∨ c = .ping then 0 else t.toNat % 16) * 16 +
      (if c = .toggleState then g.toNat % 2 else if c = .requestDatapoint then g.toNat % 16 else 0) := by
  rw [← requestTarget_digit, ← requestFlags_digit hc]
  exact toNat_lowBits_append _ _ 4

/-- Settles O55: the lines before it build the envelope and count `SEQ` up (`run_request`), and the last one sends it
(`sentFrame_requestReady`). -/
theorem masterSendsRequestFrame : Obligations.MasterSendsRequestFrame := by
  intro c d t g v rest n s hacts hc hlines hres hsends
  have hn : n = if carriesFloat c then 8 else 7 := by
    simp only [carriesFloat_eq_true]
    obtain ⟨hf, rfl⟩ | ⟨hf, rfl⟩ := hlines
    · exact (if_pos hf).symm
    · exact (if_neg hf).symm
  obtain ⟨m, rfl⟩ : ∃ m, n = m + 1 := ⟨n - 1, by rw [hn]; split <;> rfl⟩
  obtain ⟨rs, vs, hid, hrun⟩ := run_request hacts hc hn hres
  have hw : (requestReady (m + 1) c d t g v rest rs vs s).link.writeFails = false :=
    (congrArg Link.writeFails (advances_link m s)).trans hsends
  have hlen : (requestLen c).toNat ≤ 8 := by cases c <;> decide
  simp only [← carriesFloat_eq_true]
  refine ⟨_, requestFrame c d t g v s, hrun.trans (congrArg Host.Outcome.next (hostOp_sendF_sends hlen hw)),
    congrArg (fun f => s.sent ++ [f]) (sentFrame_requestReady _ c d t g v rest rs hid), toNat_packIdent_self d s, rfl,
    ?byte0, ?byte1, float_envelopePayload .., tail_envelopePayload .., BitVec.toNat_add .., rfl, ?frame⟩
  case byte0 =>
    rw [requestFrame, byteOf_envelopePayload, if_pos rfl]
    exact toNat_packNibbles_setWidth _ _
  case byte1 =>
    rw [requestFrame, byteOf_envelopePayload, if_neg (by decide), if_pos rfl]
    exact toNat_requestByte1 hc t g
  case frame =>
    rw [advances_eq_withEnv]
    rfl

end Sys2Proof.Machine

/-! SUPPORT. The host's sequences (R222 to R240): what the host does with the response it waited for, a send that
fails, how the host begins to await a frame, the slave's poll, and bring-up. -/

namespace Sys2Proof.Machine

/-! ### The response that the host waited for -/

section Response

variable {s : State}

theorem hostResponse_error (he : s.response.status ≠ .ok) :
    hostResponse s = .host (s.finish (.failed s.response.status)) := if_pos he

theorem hostResponse_pollFound (hok : s.response.status = .ok) (hrole : s.role = .poll) (hres : s.res0 ≠ 0) :
    hostResponse s = .host (startPlan [.takeRequest] { s with waiting := false }) := by
  rw [hostResponse, if_neg (not_not.mpr hok), if_pos hrole, if_neg hres]

theorem hostResponse_pollNone (hok : s.response.status = .ok) (hrole : s.role = .poll) (hres : s.res0 = 0) :
    hostResponse s = .host s.stopWaiting := by
  simp [hostResponse, hok, hrole, hres]

theorem hostResponse_bringUp (hok : s.response.status = .ok) (hrole : s.role = .bringUp) :
    hostResponse s = .host s.stopWaiting := by
  simp [hostResponse, hok, hrole]

theorem hostResponse_frame (hok : s.response.status = .ok) (hpoll : s.role ≠ .poll) (hup : s.role ≠ .bringUp)
    (hhit : s.response.hit = true) :
    hostResponse s = .run (.payload s.response.frame.len s.response.frame.data) s := by
  simp [hostResponse, hok, hpoll, hup, hhit]

theorem hostResponse_noFrame (hok : s.response.status = .ok) (hpoll : s.role ≠ .poll) (hup : s.role ≠ .bringUp)
    (hhit : s.response.hit = false) : hostResponse s = .host (hostNoFrame s) := by
  simp [hostResponse, hok, hpoll, hup, hhit]

theorem hostNoFrame_request (hrole : s.role = .request) : hostNoFrame s = s.stopWaiting := by
  rw [hostNoFrame, hrole]

theorem hostNoFrame_ping (hrole : s.role = .reply .ping) : hostNoFrame s = s.finish (.alive false) := by
  rw [hostNoFrame, hrole]

theorem hostNoFrame_reply {c : CmdId} (hrole : s.role = .reply c) (hc : c ≠ .ping) :
    hostNoFrame s = s.finish .noResponse := by
  rw [hostNoFrame, hrole]
  cases c
  case ping => exact absurd rfl hc
  all_goals rfl

/-- A step of an idle block whose host waits is the reading of the response (R238). -/
theorem fetch_reads (h : Reads s) : fetch s.advance = hostResponse s.advance := by
  obtain ⟨hop, hwait, hreset⟩ := h
  simp [fetch, hop, hwait, hreset]

theorem step_reads {t : State} (h : Reads s) (ht : hostResponse s.advance = .host t) : step s = .next t := by
  rw [step, fetch_reads h, ht]

theorem step_reads_error (h : Reads s) (he : s.response.status ≠ .ok) : step s = .next { s.advance with
    results := s.results ++ [.failed s.response.status], waiting := false, plan := [] } := by
  rw [step_reads h (hostResponse_error (by rwa [advance_response])), advance_response, State.finish, advance_results]

theorem step_reads_bringUp (h : Reads s) (hrole : s.role = .bringUp) (hok : s.response.status = .ok) :
    step s = .next { s.advance with waiting := false, plan := [] } :=
  step_reads h (hostResponse_bringUp (by rwa [advance_response]) (by rwa [advance_role]))

theorem step_reads_noFrame (h : Reads s) (hpoll : s.role ≠ .poll) (hup : s.role ≠ .bringUp)
    (hok : s.response.status = .ok) (hhit : s.response.hit = false) : step s = .next (hostNoFrame s.advance) :=
  step_reads h (hostResponse_noFrame (by rwa [advance_response]) (by rwa [advance_role]) (by rwa [advance_role])
    (by rwa [advance_response]))

end Response

/-- Settles O44: the host hands the frame's payload on, and the step decodes and runs it. -/
theorem stepRunsReceivedEnvelope : Obligations.StepRunsReceivedEnvelope := by
  intro i s hreads hpoll hup hok hhit hd
  have found : hostResponse s.advance = .run (.payload s.response.frame.len s.response.frame.data) s.advance := by
    rw [← advance_response] at hok hhit ⊢
    rw [← advance_role] at hpoll hup
    exact hostResponse_frame hok hpoll hup hhit
  rw [step, fetch_reads hreads, found]
  simp only [hd]

/-- Settles O53: an error ends every sequence (`step_reads_error`), and what the end of a wait without a frame comes
to is the role's (`hostNoFrame`). -/
theorem waitEndedWithoutFrame : Obligations.WaitEndedWithoutFrame := by
  intro s hreads hpoll
  refine ⟨fun hok hhit => ⟨fun c hrole hc => ?reply, fun hrole => ?ping, fun hrole => ?request⟩,
    step_reads_error hreads⟩
  case reply =>
    rw [step_reads_noFrame hreads hpoll (by simp [hrole]) hok hhit,
      hostNoFrame_reply (by rwa [advance_role]) hc, State.finish, advance_results]
  case ping =>
    rw [step_reads_noFrame hreads hpoll (by simp [hrole]) hok hhit,
      hostNoFrame_ping (by rwa [advance_role]), State.finish, advance_results]
  case request =>
    rw [step_reads_noFrame hreads hpoll (by simp [hrole]) hok hhit, hostNoFrame_request (by rwa [advance_role])]
    rfl

/-! ### A send that fails (R222, R256) -/

/-- The last line of a sequence whose write fails (R176, R177). -/
theorem hostOp_sendF_fails {len : BitVec 4} {s : State} (hlen : len.toNat ≤ 8) (hwait : s.waiting = false)
    (hw : s.link.writeFails = true) : hostOp (.sendF len) s = { s with
      op := none, rsp := Response.error .transportError :: s.rsp, plan := []
      results := s.results ++ [.failed .transportError] } := by
  obtain ⟨hw', -⟩ | ⟨-, hline⟩ := hostOp_sendF_cases hlen s
  · simp [hw] at hw'
  · rw [hline, hwait]

theorem Acts.waiting {a : HostAct} {rest : List HostAct} {s : State} (h : Acts a rest s) : s.waiting = false := by
  obtain ⟨-, hwait, -⟩ := h
  exact hwait

theorem RequestLines.eq_ite {c : CmdId} {n : Nat} (h : RequestLines c n) : n = if carriesFloat c then 8 else 7 := by
  simp only [carriesFloat_eq_true]
  obtain ⟨hf, rfl⟩ | ⟨hf, rfl⟩ := h
  · exact (if_pos hf).symm
  · exact (if_neg hf).symm

/-- The inputs that a master's `SENDF` sees are those of the request's last step. -/
theorem requestReady_link {c : CmdId} {n : Nat} (hn : RequestLines c n) (d t g : BitVec 16) (v : Word32)
    (rest : List HostAct) (rs : List Response) (vs : Vars) (s : State) :
    (requestReady n c d t g v rest rs vs s).link = s.linkAt (n - 1) := by
  obtain ⟨m, rfl⟩ : ∃ m, n = m + 1 := by
    obtain ⟨-, rfl⟩ | ⟨-, rfl⟩ := hn <;> exact ⟨_, rfl⟩
  exact advances_link m s

/-- Settles O56: both sequences come to their `SENDF` (`run_request`, `run_broadcast`), which ends them with the
error (`hostOp_sendF_fails`). -/
theorem failedSendEndsSequence : Obligations.FailedSendEndsSequence := by
  refine ⟨fun c d t g v rest n s hacts hc hlines hres hfails => ?request,
    fun st ch v rest s hacts hres hfails => ?broadcast⟩
  case request =>
    obtain ⟨rs, vs, -, hrun⟩ := run_request hacts hc hlines.eq_ite hres
    have hw : (requestReady n c d t g v rest rs vs s).link.writeFails = true := by
      rw [requestReady_link hlines, hfails]
    have hlen : (requestLen c).toNat ≤ 8 := by cases c <;> decide
    refine ⟨_, hrun.trans (congrArg Host.Outcome.next (hostOp_sendF_fails hlen hacts.waiting hw)), rfl,
      BitVec.toNat_add .., ?_⟩
    rw [advances_eq_withEnv]
    rfl
  case broadcast =>
    obtain ⟨rs, vs, -, hrun⟩ := run_broadcast hacts hres
    have hw : (broadcastReady st ch v rest rs vs s).link.writeFails = true :=
      (congrArg Link.writeFails (advances_link 7 s)).trans hfails
    refine ⟨_, hrun.trans (congrArg Host.Outcome.next (hostOp_sendF_fails (by decide) hacts.waiting hw)), rfl, ?_⟩
    rw [advances_eq_withEnv]
    rfl

/-! ### A line whose response the host waits for (R238) -/

/-- The act whose sequence has one line: the step does it (R225). -/
theorem step_acts_line {a : HostAct} {rest : List HostAct} {o : HostOp} {s : State} (h : Acts a rest s)
    (ha : ∀ t, hostAct a t = .host (startPlan [o] t)) :
    step s = .next (hostOp o { s.advance with script := rest, plan := [] }) := by
  rw [step, fetch_acts h, ha]
  rfl

/-- `PACK SELF, d` (R222, R233, R234). -/
theorem packIdent_selfOperand (d : BitVec 16) (s : State) :
    packIdent s.selfOperand d = s.params.self ++ d.extractLsb' 0 6 := by
  rw [← packIdent_self, ident_roundtrip]

/-- A line that issues a timed read on a silent transport with no buffered match leaves it in progress, and the host
waiting (R154, R238). -/
theorem hostOp_readMT_pending {o : HostOp} {r : Role} {id mask : Ident} {time : Word32} {s : State}
    (hi : o.instr s = some (.readMT time id mask)) (hr : o.awaits = some r) (hpq : NoneMatch id mask s.pq)
    (ha : s.link.availFails = false) (ht : s.tq = []) (hlag : s.link.lag = 0) (htime : 0 < time.toNat) :
    hostOp o s = { s with
      opId := id, opMask := mask, dl := s.now + time.toNat, op := some .readMT, waiting := true, role := r } := by
  obtain ⟨hstart, -⟩ := timedReadOnSilentTransport
  obtain ⟨-, hpending⟩ := hstart id mask time s hpq ha ht
  rw [hostOp_awaiting hi hr (hpending (by rwa [hlag])), hlag, Nat.add_zero]
  rfl

/-- Settles O57: each sequence comes to its read in at most two steps (`run_await`, `run_await_act`,
`step_acts_line`), and on a silent transport the read is then in progress (`hostOp_readMT_pending`, O18). -/
theorem awaitedFilters : Obligations.AwaitedFilters := by
  refine ⟨fun c d s hcont hres ht ha hlag htime hpq => ?reply, fun rest s hacts hres ht ha hlag htime hpq => ?request,
    fun d t g v rest s hacts ht hr hq hpq => ?broadcast⟩
  case reply =>
    have reads : (HostOp.awaitReply c).instr (State.withEnv (s.advances 2) (s.packedFrom d)) =
        some (.readMT s.params.tReply (s.params.self ++ d.extractLsb' 0 6) 0xFFF) :=
      congrArg (fun id => some (Instr.readMT s.params.tReply id 0xFFF)) (packIdent_self d s)
    refine ⟨_, (run_await hcont hres).trans
      (congrArg Host.Outcome.next (hostOp_readMT_pending reads rfl hpq ha ht hlag htime)), rfl, ?_⟩
    rw [advances_eq_withEnv]
    rfl
  case request =>
    have reads : HostOp.awaitRequest.instr
        (State.withEnv (s.advances 2) (({ s with script := rest } : State).packedFrom 0)) =
        some (.readMT s.params.tListen (s.params.self ++ (0 : BitVec 6)) 0xFC0) :=
      congrArg (fun id => some (Instr.readMT s.params.tListen id 0xFC0)) (packIdent_self 0 s)
    refine ⟨_, (run_await_act hacts (fun _ => rfl) hres).trans
      (congrArg Host.Outcome.next (hostOp_readMT_pending reads rfl hpq ha ht hlag htime)), rfl, ?_⟩
    rw [advances_eq_withEnv]
    rfl
  case broadcast =>
    obtain ⟨waits, -⟩ := untimedReadWaitsWhileTransportSilent 0xFC0 0xFC0
      { s.advance with script := rest, plan := [] } (by rwa [advance_pq]) ((queueFull_advance s).trans hq) hr ht
    rw [step_acts_line hacts (fun _ => rfl), hostOp_awaiting (o := .awaitBroadcast) rfl rfl waits]
    rfl

/-! ### The slave's poll (R234) -/

/-- Settles O59: the two lines of the sequence (`run_await_act`), and the two answers that end it. -/
theorem pollOnceStartsAndEnds : Obligations.PollOnceStartsAndEnds := by
  refine ⟨fun rest s hacts hres => ?starts, fun s hreads hrole => ⟨fun hok h0 => ?none, step_reads_error hreads⟩⟩
  case starts =>
    have issues : HostOp.availRequest.instr
        (State.withEnv (s.advances 2) (({ s with script := rest } : State).packedFrom 0)) =
        some (.availM (s.params.self ++ (0 : BitVec 6)) 0xFC0) :=
      congrArg (fun id => some (Instr.availM id 0xFC0)) (packIdent_self 0 s)
    have packed : packIdent s.selfOperand 0 = s.params.self ++ (0 : BitVec 6) := packIdent_selfOperand 0 s
    rw [← packed] at issues ⊢
    rw [run_await_act hacts (fun _ => rfl) hres, hostOp_awaiting issues rfl rfl, advances_eq_withEnv]
    exact ⟨_, rfl, rfl⟩
  case none =>
    exact step_reads hreads
      (hostResponse_pollNone (by rwa [advance_response]) (by rwa [advance_role]) (by rwa [advance_res0]))

/-- A frame for the node's own address passes the slave's filter (R80, R150, R234). -/
theorem masked_eq_of_destOf {id : Ident} {self : BitVec 6} (h : destOf id = self) :
    id &&& 0xFC0 = (self ++ (0 : BitVec 6)) &&& 0xFC0 := by
  subst h
  apply BitVec.eq_of_getLsbD_eq
  intro i hi
  simp only [BitVec.getLsbD_and, BitVec.getLsbD_append, destOf, BitVec.getLsbD_extractLsb']
  by_cases h6 : i < 6
  · interval_cases i <;> simp
  · simp [h6, show i - 6 < 6 by omega, show 6 + (i - 6) = i by omega]

/-- Settles O60: the response found leads to `TRYTAKE`, which takes the first match out (O13). -/
theorem pollTakesAvailableFrame : Obligations.PollTakesAvailableFrame := by
  intro l₁ l₂ f s hreads hrole hok hres hid hpq hl₁ hf
  obtain ⟨-, takes, -⟩ := tryTakeRemovesFirstMatch
  have found : hostResponse s.advance = .host (startPlan [.takeRequest] { s.advance with waiting := false }) :=
    hostResponse_pollFound (by rwa [advance_response]) (by rwa [advance_role]) (by rwa [advance_res0])
  have hwait : s.advance.waiting = true := by
    obtain ⟨-, hwait, -⟩ := hreads
    rwa [advance_waiting]
  have issues : HostOp.takeRequest.instr { s.advance with waiting := false, plan := [] } =
      some (.tryTake (s.params.self ++ (0 : BitVec 6)) 0xFC0) := by
    rw [HostOp.instr, advance_vars, hid, ident_roundtrip]
  have line := hostOp_awaiting issues rfl
    (takes _ _ l₁ l₂ f _ ((advance_pq s).trans hpq) hl₁ (masked_eq_of_destOf hf))
  rw [step_reads hreads found, ← advance_rsp]
  refine congrArg Host.Outcome.next (line.trans ?_)
  rw [State.await, ← hwait]

/-! ### Bring-up (R240, R282, R283) -/

/-- A restart drops whatever the step would have done (R280). -/
theorem step_reset {s : State} (h : s.advance.link.hardReset = true) : step s = .next s.advance.hardReset := by
  rw [step, fetch, if_pos h]

/-- The host issues `MRESET` and waits for its end. -/
theorem step_bringUp {s t : State} (h : Continues [.resetMatcher] s)
    (ht : exec .mReset { s.advance with plan := [] } = .next t) : step s = .next (t.await .bringUp) :=
  (step_continues h).trans (congrArg Host.Outcome.next (hostOp_awaiting rfl rfl ht))

/-- The node is left alone for `n` steps: nothing arrives, no call fails, and no reset. -/
def LeftAlone (n : Nat) (s : State) : Prop := ∀ k ∈ s.ticks.take n, k.arrivals = [] ∧ k.link.calm

theorem leftAlone_succ {n : Nat} {s : State} : LeftAlone (n + 1) s ↔ LeftAlone 1 s ∧ LeftAlone n s.advance :=
  forall_ticks_succ

theorem LeftAlone.calm {s : State} (h : LeftAlone 1 s) : s.advance.link.calm := calm_advance fun k hk => (h k hk).2

theorem LeftAlone.tq {s : State} (h : LeftAlone 1 s) : s.advance.tq = s.tq :=
  advance_tq_of_no_arrivals fun k hk => (h k hk).1

/-- `t` is `s` with the block and the host idle, and nothing else changed but the environment, whose backlog is
empty. -/
def NodeUp (s t : State) : Prop :=
  t.tq = [] ∧ t = State.withEnv t { s with op := none, waiting := false, plan := [] }

/-- `MRESET` has ended, and the host reads its `OK` (R240). -/
theorem run_bringUp_answered {s : State} (hop : s.op = none) (hwait : s.waiting = true) (hrole : s.role = .bringUp)
    (hok : s.response.status = .ok) (ht : s.tq = []) (hleft : LeftAlone 1 s) :
    ∃ t, Host.Core.run core 1 s = .next t ∧ NodeUp s t := by
  obtain ⟨-, -, -, -, hreset⟩ := hleft.calm
  refine ⟨_, run_next 0 (step_reads_bringUp ⟨hop, hwait, hreset⟩ hrole hok), hleft.tq.trans ht, ?_⟩
  rw [advance_eq_withEnv, ← hop]
  rfl

/-- `MRESET` is in progress on a transport without flush: each step discards a frame, the next to the last one finds
the backlog empty, and the last one reads the response (R157, R240). -/
theorem run_bringUp_flushing {s : State} (hop : s.op = some .mReset) (hwait : s.waiting = true)
    (hrole : s.role = .bringUp) (ho : s.params.offersFlush = false) (hleft : LeftAlone (s.tq.length + 2) s) :
    ∃ t, Host.Core.run core (s.tq.length + 2) s = .next t ∧ NodeUp { s with rsp := Response.ok :: s.rsp } t := by
  generalize ht : s.tq = q at hleft ⊢
  induction q generalizing s with
  | nil =>
    obtain ⟨now, later⟩ := leftAlone_succ.mp hleft
    obtain ⟨t, hrun, up⟩ := run_bringUp_answered (s := respond Response.ok s.advance) rfl
      (by simpa) (by simpa) rfl (now.tq.trans ht) later
    rw [advance_eq_withEnv] at up
    exact ⟨t, (run_next 1 (step_mReset_ends hop ho now ht)).trans hrun, up⟩
  | cons f q ih =>
    obtain ⟨now, later⟩ := leftAlone_succ.mp hleft
    obtain ⟨t, hrun, up⟩ := ih (s := { s.advance with tq := q }) (by simpa) (by simpa) (by simpa) (by simpa) rfl later
    rw [advance_eq_withEnv] at up
    exact ⟨t, (run_next _ (step_mReset_discards hop ho now ht)).trans hrun, up⟩

/-- Bring-up left alone, from its one line on: `MRESET` ends in the step that issues it, or has begun to discard the
backlog (R157, R240). -/
theorem run_bringUp {n : Nat} {s : State} (h : Continues [.resetMatcher] s)
    (hn : (s.params.offersFlush = true ∧ n = 2) ∨ (s.params.offersFlush = false ∧ n = s.tq.length + 2))
    (hleft : LeftAlone n s) : ∃ t, Host.Core.run core n s = .next t ∧
      NodeUp { s with pq := [], role := .bringUp, rsp := Response.ok :: s.rsp } t := by
  obtain ⟨flushes, silent, discards⟩ := matcherResetDropsQueueAndBacklog { s.advance with plan := [] }
  rw [← advance_params s] at hn
  obtain ⟨m, rfl⟩ : ∃ m, n = m + 1 := by
    obtain ⟨-, rfl⟩ | ⟨-, rfl⟩ := hn <;> exact ⟨_, rfl⟩
  obtain ⟨now, later⟩ := leftAlone_succ.mp hleft
  obtain ⟨hr, ha, -, hf, -⟩ := now.calm
  suffices begun : ∃ u, step s = .next u ∧ ∃ t, Host.Core.run core m u = .next t ∧
      NodeUp { s.advance with pq := [], role := .bringUp, rsp := Response.ok :: s.advance.rsp } t by
    obtain ⟨u, hstep, hrun⟩ := begun
    rw [advance_eq_withEnv] at hrun
    rw [run_next m hstep]
    exact hrun
  rcases hn with ⟨ho, hm⟩ | ⟨ho, hm⟩
  case inl =>
    obtain rfl : m = 1 := Nat.succ.inj hm
    exact ⟨_, step_bringUp h (flushes ho hf), run_bringUp_answered rfl rfl rfl rfl rfl later⟩
  case inr =>
    obtain rfl : m = s.tq.length + 1 := Nat.succ.inj hm
    cases ht : s.tq with
    | nil =>
      rw [ht] at later
      have silence : s.advance.tq = [] := now.tq.trans ht
      exact ⟨_, step_bringUp h (silent ho ha silence), run_bringUp_answered rfl rfl rfl rfl silence later⟩
    | cons f q =>
      rw [ht] at later
      exact ⟨_, step_bringUp h (discards f q ho ha hr (now.tq.trans ht)),
        run_bringUp_flushing rfl rfl rfl ho later⟩

/-- Settles O37: a restart leaves the node with bring-up to do (`step_reset`), whose one line issues `MRESET`
(`step_bringUp`) and whose end the host reads; left alone it runs to its end (`run_bringUp`). -/
theorem restartBringsNodeUpAnew : Obligations.RestartBringsNodeUpAnew := by
  refine ⟨fun s hreset => ⟨_, step_reset hreset, ?restart⟩, rfl, fun s hcont => ⟨_, rfl, step_bringUp hcont rfl⟩,
    fun s hreads hrole => ⟨step_reads_bringUp hreads hrole, step_reads_error hreads⟩, fun n s hcont hn hleft => ?run⟩
  case restart => simp
  case run =>
    obtain ⟨t, hrun, up⟩ := run_bringUp hcont hn hleft
    refine ⟨t, hrun, ?_⟩
    obtain ⟨htq, hframe⟩ := up
    rw [hframe]
    exact ⟨rfl, rfl, rfl, rfl, htq, rfl, rfl, rfl, rfl, rfl, rfl, rfl⟩

end Sys2Proof.Machine

/-! SUPPORT. Exceptions (R250 to R256): raising records a status and changes nothing else, so that every error is a
next state. -/

namespace Sys2Proof.Machine

/-- The operation in progress stops, and the status is all that is recorded (R255). -/
theorem raise_eq (e : Status) (s : State) : raise e s = { s with rsp := Response.error e :: s.rsp, op := none } := rfl

/-! ### `OutOfRange` (R251) -/

theorem appendOp_tooLong {n : Nat} {v : Payload} {s : State} (h : bufBytes < s.cur.toNat + n) :
    appendOp n v s = raise .outOfRange s := if_pos h

theorem exec_putBuf (len : BitVec 4) (data : Payload) (s : State) :
    exec (.putBuf len data) s = .next (putBufOp len.toNat data s) := rfl

theorem putBufOp_tooLong {n : Nat} {v : Payload} {s : State} (h : bufBytes < n) :
    putBufOp n v s = raise .outOfRange s := if_pos h

/-- Settles O3: each of the three operations checks the length before it writes. -/
theorem outOfRangeChangesNothing : Obligations.OutOfRangeChangesNothing := by
  refine ⟨fun i n v s hi hover => ?append, fun len data id s hover => ⟨?putBuf, ?sendF⟩⟩
  case append => rw [exec_typedAppend s hi, appendOp_tooLong hover, raise_eq]
  case putBuf => rw [exec_putBuf, putBufOp_tooLong hover, raise_eq]
  case sendF => rw [exec_sendF, sendOp_tooLong hover, raise_eq]

/-! ### `IllegalOp` (R254) -/

/-- A word that is no instruction is consumed from the host's order and raises `IllegalOp`, whatever it is that the
decoder found wrong with it (R92, R254). -/
theorem step_illegalWord {cw : CommandWord} {rest : List HostAct} {e : DecodeError} {s : State}
    (h : Acts (.word cw) rest s) (hd : decode (.word cw) = .error e) :
    step s = .next (raise .illegalOp { s.advance with script := rest }) := by
  unfold step
  rw [fetch_acts h]
  simp only [hostAct, hd, reject]

/-- Settles O45: the codes that the decoder takes are the 22 (`commandWordDecodesByOpcode`), so it takes no other. -/
theorem unassignedOpcodeIsIllegalOp : Obligations.UnassignedOpcodeIsIllegalOp := by
  intro cw rest s hacts hopc
  obtain ⟨decodes, -⟩ := commandWordDecodesByOpcode
  cases hd : decode (.word cw) with
  | ok i => exact absurd ((decodes cw).mp ⟨i, hd⟩) hopc
  | error e => rw [step_illegalWord hacts hd, raise_eq, advance_rsp]

/-! ### No step stops the machine (R250, R255, R256) -/

/-- Settles O31, by what each kind of step answers (`step_later`). -/
theorem everyStepAnswersNext : Obligations.EveryStepAnswersNext := by
  intro s
  obtain ⟨t, ht, -⟩ := step_later s
  exact ⟨t, ht⟩

end Sys2Proof.Machine

/-! SUPPORT. Hardware reset as an input of a step (R280): the block takes the reset values whatever was in progress,
no response is recorded, and the transport is as the environment's move left it. -/

namespace Sys2Proof.Machine

/-- Hardware reset leaves the cursor, the queue, the buffer and the operation in progress as the reset state has
them (R35, R280). -/
theorem hardReset_resetValues (s : State) :
    s.hardReset.cur = 0 ∧ s.hardReset.pq = [] ∧ (∀ a, s.hardReset.buf.read a = 0) ∧ s.hardReset.op = none := by
  obtain ⟨-, -, bufZero, -⟩ := resetValues
  exact ⟨hardReset_cur s, hardReset_pq s, bufZero, hardReset_op s⟩

/-- Hardware reset answers nothing and does not touch the transport (R280). -/
theorem hardReset_keepsTransport (s : State) :
    s.hardReset.rsp = s.rsp ∧ s.hardReset.tq = s.tq ∧ s.hardReset.sent = s.sent :=
  ⟨hardReset_rsp s, hardReset_tq s, hardReset_sent s⟩

/-- Settles O36: where reset is asserted, the step is the reset of the state after the environment's move
(`step_reset`), and that move itself neither answers nor sends. -/
theorem hardwareResetAbandonsOperation : Obligations.HardwareResetAbandonsOperation := by
  intro s hreset
  obtain ⟨hcur, hpq, hbuf, hop⟩ := hardReset_resetValues s.advance
  obtain ⟨hrsp, htq, hsent⟩ := hardReset_keepsTransport s.advance
  refine ⟨s.advance.hardReset, step_reset hreset, hcur, hpq, hbuf, hop, ?response, htq, ?sent⟩
  case response => rw [hrsp, advance_rsp]
  case sent => rw [hsent, advance_sent]

end Sys2Proof.Machine
